-- ==== Sys2Proof/Word.lean ====
section
/-! DEFINITION. The word types of the core (00_scope.md R8, R9, R10, R13). -/

namespace Sys2Proof

/-- A byte: registers A, X, Y, SP, an opcode, and the one data width of the bus (R8). -/
abbrev Byte := BitVec 8

/-- A word: the program counter and every address of the core's bus (R8, R9). -/
abbrev Word := BitVec 16

/-- A full MCU address, 26 bits: the address the Handheld router takes (R10). -/
abbrev McuAddr := BitVec 26

end Sys2Proof
end

