-- ==== Sys2Proof/Machine/Bits.lean ====
section
/-! DEFINITION. Bit fields, extensions and byte order (00_scope.md R12, R13). -/

namespace Sys2Proof.Machine

/-- `concat16(hi, lo)` of R13: `hi * 256 + lo`. -/
def concat16 (hi lo : Byte) : Word := hi ++ lo

/-- `w[15:8]` (R12). -/
def highByte (w : Word) : Byte := w.extractLsb' 8 8

/-- `w[7:0]` (R12). -/
def lowByte (w : Word) : Byte := w.extractLsb' 0 8

/-- `zext_16(b)` of R13. -/
def zext16 (b : Byte) : Word := b.setWidth 16

/-- `sext_16(b)` of R13: `b` if `b < 128`, else `b + 0xFF00`. -/
def sext16 (b : Byte) : Word := b.signExtend 16

/-- `signed8(b)` of R13: `b` if `b < 128`, else `b - 256`. -/
def signed8 (b : Byte) : Int := b.toInt

/-- The carry as a number, 0 or 1. -/
def carryNat (c : Bool) : Nat := if c then 1 else 0

/-- A byte that holds one bit at position `n`. -/
def bitAt (n : Nat) (b : Bool) : Byte := if b then 1#8 <<< n else 0#8

end Sys2Proof.Machine
end

