-- ==== Sys2Proof/Config.lean ====
section
/-! DEFINITION. The named parameters of the spec (00_scope.md R11) and the values it leaves open
(93_implementation_defined.md part 1). The opaque constants are free values: they have no body, so
whatever is proved holds for every value. -/

namespace Sys2Proof

/-- Which of the two decimal instructions asks (42_alu.md R183, the `op` argument). -/
inductive DecimalOp where
  | adc
  | sbc
  deriving DecidableEq, Repr

/-- DecimalV of R183 as an open parameter (D18): the V flag of a decimal ADC or SBC, a total function
of the operation, A, M and C. FREE VALUE (log 6). -/
opaque Config.decimalV : DecimalOp → Byte → Byte → Bool → Bool

/-- DecimalNonBcd of R183 as an open parameter (D18): the result byte and the carry of a decimal ADC or
SBC with an operand nibble above 9. FREE VALUE (log 6). -/
opaque Config.decimalNonBcd : DecimalOp → Byte → Byte → Bool → Byte × Bool

/-- Whether a router construction with both image lengths wrong reports the OTP error (the flash error
otherwise): any value (20_memory.md R84, D28, I10). FREE VALUE (log 12). -/
opaque Config.bothLengthsWrongReportsOtp : Bool

/-- Why an access answers Unimplemented (R60, R82, R83, R341). -/
inductive Reason where
  /-- a read of the video region (R82) -/
  | videoRead
  /-- a write of the video region (R82) -/
  | videoWrite
  /-- a write of OTP (R83) -/
  | otpWrite
  /-- a write of flash (R83) -/
  | flashWrite
  /-- a reason of an address space other than the Handheld, by number: of the harness, the tag its hole carries
  (95_test_vectors.md, "Unimplemented at") -/
  | hole (tag : Nat)
  deriving DecidableEq, Repr, Inhabited

/-- `read : S -> word -> (Ok byte | Unimplemented reason)` of an address space the spec says nothing more of
(20_memory.md R60, R61): the first number names the implementation, the second its state in S. Any total function,
as R60 has it. FREE VALUE (log 18). -/
opaque Config.externalRead : (implementation contents : Nat) → Word → Except Reason Byte

/-- `write : S -> word -> byte -> (Ok S | Unimplemented reason)` of such an address space (R60, R69): whether the
write is accepted and which state of S it leads to. FREE VALUE (log 18). -/
opaque Config.externalWrite : (implementation contents : Nat) → Word → Byte → Except Reason Nat

/-- Which DecimalV and DecimalNonBcd a core has (R11, R183, D18). -/
inductive DecimalChoice where
  /-- open: the two opaque functions above -/
  | free
  /-- the spec's W65C02S defaults, written out in R183 -/
  | w65c02s
  deriving DecidableEq, Repr

/-- The parameters of R11 that the model takes as an argument. They stand in State as plain data, so
that a statement about every state holds for every value of them; no step changes them. -/
structure Params where
  /-- SERVICE_GATE: an interrupt being serviced blocks the next one (R347, D13) -/
  serviceGate : Bool
  /-- INTERRUPT_CLEARS_D: interrupt and BRK entry clear D (R350, R301, D14) -/
  interruptClearsD : Bool
  /-- which DecimalV and DecimalNonBcd (R183, D18) -/
  decimal : DecimalChoice
  deriving DecidableEq, Repr

/-- The spec's default SERVICE_GATE = true (D13) and INTERRUPT_CLEARS_D = true (D14), with the two
decimal functions open (D18). -/
def Params.default : Params :=
  { serviceGate := true, interruptClearsD := true, decimal := .free }

end Sys2Proof
end

