-- ==== Sys2Proof/Machine/Memory.lean ====
section
/-! DEFINITION. Sparse byte memory in one canonical form: the store behind the harness memory and behind
the Handheld's two images. Keys rise strictly and no entry equals what an unlisted key reads as, so equal
memories are equal lists. -/

namespace Sys2Proof.Machine

/-- A memory: its listed bytes, keys rising. -/
abbrev Memory := List Host.Cell

/-- What an unlisted byte reads as. DESIGN CHOICE (log 1), unsafe: the core defines no memory contents at
power-on (70_reset_and_hazards.md R383); 0x00 is the convention of the spec's own vectors
(95_test_vectors.md: "every memory byte 0x00 except those listed"). -/
def unlistedByte : Byte := 0x00#8

/-- One byte read by key. -/
def Memory.read : Memory → Nat → Byte
  | [], _ => unlistedByte
  | (k, b) :: rest, a => if k = a then b else Memory.read rest a

/-- One byte written by key. Writing `unlistedByte` removes the entry, so the form stays canonical. -/
def Memory.write : Memory → Nat → Byte → Memory
  | [], a, v => if v = unlistedByte then [] else [(a, v)]
  | (k, b) :: rest, a, v =>
    if k < a then (k, b) :: Memory.write rest a v
    else
      let tail := if k = a then rest else (k, b) :: rest
      if v = unlistedByte then tail else (a, v) :: tail

/-- Every key of the memory is above `lo`, rising, and no listed byte equals `unlistedByte`. -/
def Memory.wfAbove : Option Nat → Memory → Bool
  | _, [] => true
  | lo, (k, b) :: rest =>
    (match lo with | none => true | some l => l < k) && b != unlistedByte && Memory.wfAbove (some k) rest

/-- The canonical form. -/
def Memory.wf (m : Memory) : Bool := Memory.wfAbove none m

/-- Every listed key is below `size`. -/
def Memory.within (size : Nat) (m : Memory) : Bool := m.all fun c => c.1 < size

/-- The memory that holds the given bytes at `base`, `base + 1`, …: an image as a sparse memory. -/
def Memory.ofBytes : Nat → List Byte → Memory
  | _, [] => []
  | base, b :: rest =>
    if b = unlistedByte then Memory.ofBytes (base + 1) rest else (base, b) :: Memory.ofBytes (base + 1) rest

end Sys2Proof.Machine
end

