-- ==== Sys2Proof/Machine/Router.lean ====
section
/-! DEFINITION. The Handheld address router (20_memory.md part 2, R77 to R87): a 26-bit MCU address decoded
into OTP, flash and the unimplemented video region. -/

namespace Sys2Proof.Machine

/-- FLASH_LEN = 2,097,152 (R11, R81). -/
def flashLen : Nat := 0x200000

/-- The 26-bit MCU address space (R10, R87): addresses below 2^26. -/
def mcuSize : Nat := 0x4000000

/-- `selector = address >> 21` (R78). -/
def mcuSelector (addr : Nat) : Nat := addr / 0x200000

/-- `offset = address & 0x1FFFFF` (R78). -/
def mcuOffset (addr : Nat) : Nat := addr % 0x200000

/-- The three regions of the router (R79, R80, R81). -/
inductive Region where
  | video
  | otp
  | flash
  deriving DecidableEq, Repr

/-- The region a selector chooses: 0b00011 video, 0b00000 and 0b11111 OTP, any other flash (R79 to R81). -/
def selectRegion (selector : Nat) : Region :=
  if selector = 0b00011 then .video
  else if selector = 0b00000 ∨ selector = 0b11111 then .otp
  else .flash

/-- The Handheld: the two images, which are immutable (R85), the parameter OTP_LEN (D8) and the parameter
cpu_to_mcu (R86, D7), a table with one entry a core address; a core address not listed maps to MCU
address 0, so that a shorter table stands for a map too (log 10). -/
structure Handheld where
  otpLen : Nat
  otp : Memory
  flash : Memory
  cpuToMcu : List (Nat × McuAddr)
  deriving DecidableEq, Repr

/-- The byte the region holds at an offset: OTP modulo OTP_LEN, a true remainder (R80); flash modulo
FLASH_LEN (R81); video reads are unimplemented (R82). -/
def Handheld.readRegion (h : Handheld) : Region → Nat → Except Reason Byte
  | .video, _ => .error .videoRead
  | .otp, offset => .ok (h.otp.read (offset % h.otpLen))
  | .flash, offset => .ok (h.flash.read (offset % flashLen))

/-- Why a write to a region fails: every write of the Handheld does (R82, R83, R85). -/
def regionWriteReason : Region → Reason
  | .video => .videoWrite
  | .otp => .otpWrite
  | .flash => .flashWrite

/-- What the router answers its caller (R77, R60), with R87's refusal apart. -/
inductive RouterReply where
  | byte (b : Byte)
  | unimplemented (r : Reason)
  /-- the address is at or above 2^26, outside the model's domain (R87, I9; log 14) -/
  | refused
  deriving DecidableEq, Repr

/-- `read_u8(address)` (R77 to R82, R87). -/
def Handheld.readU8 (h : Handheld) (addr : Nat) : RouterReply :=
  if mcuSize ≤ addr then .refused
  else
    match h.readRegion (selectRegion (mcuSelector addr)) (mcuOffset addr) with
    | .ok b => .byte b
    | .error r => .unimplemented r

/-- `write_u8(address, value)`: the reason it fails, or R87's refusal; it never succeeds and changes nothing
(R82, R83, R85, R87). -/
def Handheld.writeU8 (_h : Handheld) (addr : Nat) (_v : Byte) : RouterReply :=
  if mcuSize ≤ addr then .refused else .unimplemented (regionWriteReason (selectRegion (mcuSelector addr)))

/-- Look a core address up in a cpu_to_mcu table (R86; log 10). -/
def lookupMcu : List (Nat × McuAddr) → Nat → McuAddr
  | [], _ => 0#26
  | (k, m) :: rest, a => if k = a then m else lookupMcu rest a

/-- `cpu_to_mcu` of a core address (R86). -/
def Handheld.mcuOf (h : Handheld) (a : Word) : McuAddr := lookupMcu h.cpuToMcu a.toNat

/-- The core's `read(a)` on the Handheld: `read_u8(cpu_to_mcu(a))` (R86). -/
def Handheld.read (h : Handheld) (a : Word) : Except Reason Byte :=
  h.readRegion (selectRegion (mcuSelector (h.mcuOf a).toNat)) (mcuOffset (h.mcuOf a).toNat)

/-- The reason the core's `write(a, v)` fails on the Handheld: that of `write_u8(cpu_to_mcu(a), v)` (R86). -/
def Handheld.writeReason (h : Handheld) (a : Word) : Reason :=
  regionWriteReason (selectRegion (mcuSelector (h.mcuOf a).toNat))

/-- A configuration error of construction, with the length-mismatch cause (R84, R343). -/
inductive ConfigError where
  | invalidOtp (expected actual : Nat)
  | invalidFlash (expected actual : Nat)
  deriving DecidableEq, Repr

/-- `new(otp_bytes, flash_bytes)` (R84). When both lengths are wrong either error may be reported: a free
value decides (D28, I10; log 12). -/
def Handheld.new (otpLen : Nat) (cpuToMcu : List (Nat × McuAddr)) (otpBytes flashBytes : List Byte) :
    Except ConfigError Handheld :=
  let otpError : ConfigError := .invalidOtp otpLen otpBytes.length
  let flashError : ConfigError := .invalidFlash flashLen flashBytes.length
  if otpBytes.length = otpLen then
    if flashBytes.length = flashLen then
      .ok { otpLen := otpLen, otp := Memory.ofBytes 0 otpBytes, flash := Memory.ofBytes 0 flashBytes,
            cpuToMcu := cpuToMcu }
    else .error flashError
  else if flashBytes.length = flashLen then .error otpError
  else if Config.bothLengthsWrongReportsOtp then .error otpError else .error flashError

end Sys2Proof.Machine
end

