-- ==== Sys2Proof/Machine/AddressSpace.lean ====
section
/-! DEFINITION. The address-space capability (20_memory.md R60): byte read and byte write by 16-bit address,
each of which may answer Unimplemented. The spec leaves the space a parameter, "any address-space implementation",
and gives two instances, a writable 64 KiB harness memory (95_test_vectors.md) and the Handheld router (R77 to
R87). Here the two instances are plain data, and any other implementation is a third kind whose two functions are
free values (log 4, log 18). No meaning looks at which of the three is bound. -/

namespace Sys2Proof.Machine

/-- An address of the harness that answers Unimplemented to reads, to writes or to both. -/
structure Hole where
  addr : Word
  blocksRead : Bool
  blocksWrite : Bool
  tag : Nat
  deriving DecidableEq, Repr

/-- The "minimal test harness": a 64 KiB writable memory in which every access answers Ok, except at the
listed holes (95_test_vectors.md, conventions). -/
structure Harness where
  mem : Memory
  holes : List Hole
  deriving DecidableEq, Repr

/-- An address space of any implementation (R60): mirrored, banked, with writes it drops or refuses by their value,
a device. Its state in S stands here as a number, which only Config.externalRead and Config.externalWrite can
interpret (log 18); `every_capability_is_external` of Laws/AddressSpace.lean says that numbers lose nothing. -/
structure External where
  /-- which implementation; no access changes it -/
  implementation : Nat
  /-- its state in S -/
  contents : Nat
  deriving DecidableEq, Repr

/-- The address space the core is bound to (R60, R6, R46). -/
inductive AddressSpace where
  | harness (h : Harness)
  | handheld (h : Handheld)
  | external (e : External)
  deriving DecidableEq, Repr

/-- Neither of the two address spaces the spec describes. -/
def AddressSpace.isExternal (m : AddressSpace) : Bool :=
  match m with
  | .harness _ => false
  | .handheld _ => false
  | .external _ => true

/-- The first hole that blocks a read at `a`. -/
def Harness.readHole (h : Harness) (a : Word) : Option Hole :=
  h.holes.find? fun o => o.addr == a && o.blocksRead

/-- The first hole that blocks a write at `a`. -/
def Harness.writeHole (h : Harness) (a : Word) : Option Hole :=
  h.holes.find? fun o => o.addr == a && o.blocksWrite

/-- `read : S -> word -> (Ok byte | Unimplemented reason)` (R60). It returns no new space: reads are pure (R61). -/
def AddressSpace.read (m : AddressSpace) (a : Word) : Except Reason Byte :=
  match m with
  | .harness h =>
    match h.readHole a with
    | some o => .error (.hole o.tag)
    | none => .ok (h.mem.read a.toNat)
  | .handheld h => h.read a
  | .external e => Config.externalRead e.implementation e.contents a

/-- `write : S -> word -> byte -> (Ok S | Unimplemented reason)` (R60). The Handheld accepts no write (R85). -/
def AddressSpace.write (m : AddressSpace) (a : Word) (v : Byte) : Except Reason AddressSpace :=
  match m with
  | .harness h =>
    match h.writeHole a with
    | some o => .error (.hole o.tag)
    | none => .ok (.harness { h with mem := h.mem.write a.toNat v })
  | .handheld h => .error (h.writeReason a)
  | .external e =>
    match Config.externalWrite e.implementation e.contents a v with
    | .ok c => .ok (.external { e with contents := c })
    | .error r => .error r

/-- Place a byte from outside the machine, so that a read of `a` then gives it: a loader's act, never a step's
(log 9). On the harness the memory byte is set and no hole blocks the read any more; on the Handheld the
image byte the address leads to is set, and a video address is left as it is; an external space is left as it
is, since how it is loaded is its own affair. -/
def AddressSpace.poke (m : AddressSpace) (a : Word) (v : Byte) : AddressSpace :=
  match m with
  | .harness h =>
    .harness { mem := h.mem.write a.toNat v,
               holes := h.holes.map fun o => if o.addr = a then { o with blocksRead := false } else o }
  | .handheld h =>
    let mcu := (h.mcuOf a).toNat
    match selectRegion (mcuSelector mcu) with
    | .video => .handheld h
    | .otp => .handheld { h with otp := h.otp.write (mcuOffset mcu % h.otpLen) v }
    | .flash => .handheld { h with flash := h.flash.write (mcuOffset mcu % flashLen) v }
  | .external e => .external e

end Sys2Proof.Machine
end

