-- ==== Sys2Proof/Machine/State.lean ====
section
/-! DEFINITION. The state of the machine (10_state.md R30), the fault it can raise (60_exceptions.md R341) and
the state after reset (70_reset_and_hazards.md R380, R381). -/

namespace Sys2Proof.Machine

/-- Whether the core fetches (10_state.md R43). -/
inductive Mode where
  | running
  | waiting
  | stopped
  deriving DecidableEq, Repr

/-- The core's record, item by item as R30 lists it, and beside it the address space it is bound to (R60) and
the parameters of R11. -/
structure State where
  /-- accumulator (R31) -/
  A : Byte
  /-- index register X (R32) -/
  X : Byte
  /-- index register Y (R33) -/
  Y : Byte
  /-- stack pointer, low byte of the next free slot of page 0x01 (R34) -/
  SP : Byte
  /-- program counter (R36) -/
  PC : Word
  /-- Negative flag (R37) -/
  N : Bool
  /-- Overflow flag (R37) -/
  V : Bool
  /-- Decimal flag (R37) -/
  D : Bool
  /-- Interrupt-disable flag (R37) -/
  I : Bool
  /-- Zero flag (R37) -/
  Z : Bool
  /-- Carry flag (R37) -/
  C : Bool
  /-- an NMI has been requested and not taken (R41) -/
  pendingNmi : Bool
  /-- an IRQ has been requested and not taken (R41) -/
  pendingIrq : Bool
  /-- a hardware handler has been entered and no RTI has run since (R42) -/
  inService : Bool
  /-- Running, Waiting or Stopped (R43) -/
  mode : Mode
  /-- the address space (20_memory.md R60) -/
  bus : AddressSpace
  /-- the named parameters (00_scope.md R11) -/
  params : Params
  deriving DecidableEq, Repr

/-- Why a step ends without a next state. -/
inductive Fault where
  /-- `BusFault(reason, addr)` (R341): a read or a write of the step, at `addr`, answered Unimplemented. Raised by
  `readByte` and `writeByte` only, for the opcode and operand fetch, pointers, data, stack and vectors. The
  step has no effect: the state after it is the state before it (R342). Safe: the spec's own fault. -/
  | busFault (reason : Reason) (addr : Word)
  deriving DecidableEq, Repr

/-- Why an instruction has no meaning. Every opcode has one (R344), so no step of this model is refused. -/
inductive Refusal where
  /-- the instruction of this mnemonic is not modelled; raised by no arm of `exec`. Safe: the run stops. -/
  | notModelled (mnemonic : String)
  deriving DecidableEq, Repr

/-- The machine right after reset, bound to the writable harness with nothing listed (log 3). D, I, the
pending bits, in_service and mode are R381's; PC is `Read16(VEC_RESET)` over that memory, whose unlisted bytes
read 0x00 (log 1). A, X, Y, SP, N, V, Z and C are any value by R381: DESIGN CHOICE zero here (log 2), and
`hostReset` takes them as an argument. -/
def State.reset : State :=
  { A := 0x00#8, X := 0x00#8, Y := 0x00#8, SP := 0x00#8, PC := 0x0000#16,
    N := false, V := false, D := false, I := true, Z := false, C := false,
    pendingNmi := false, pendingIrq := false, inService := false, mode := .running,
    bus := .harness { mem := [], holes := [] }, params := Params.default }

end Sys2Proof.Machine
end

