-- ==== Sys2Proof/Machine/Flags.lean ====
section
/-! DEFINITION. Every flag computation of the spec: SetNZ, the P image, the binary adder, the decimal
algorithms, Compare, the shifts (00_scope.md R17; 10_state.md R38, R39; 42_alu.md R180 to R189;
43_rmw.md R201 to R204). -/

namespace Sys2Proof.Machine

/-- `SetNZ(v)`: `N <- v[7]; Z <- (v == 0)` (R17). -/
def setNZ (v : Byte) (s : State) : State := { s with N := v.msb, Z := v == 0x00#8 }

/-- The P image with break bit `b`: `N V 1 b D I Z C` from bit 7 to bit 0 (R37, R38). -/
def pImage (b : Bool) (s : State) : Byte :=
  bitAt 7 s.N ||| bitAt 6 s.V ||| 0x20#8 ||| bitAt 4 b ||| bitAt 3 s.D ||| bitAt 2 s.I ||| bitAt 1 s.Z |||
    bitAt 0 s.C

/-- Load the flags from a byte; bits 5 and 4 are ignored (R39). -/
def loadFlags (p : Byte) (s : State) : State :=
  { s with N := p.getLsbD 7, V := p.getLsbD 6, D := p.getLsbD 3, I := p.getLsbD 2, Z := p.getLsbD 1,
           C := p.getLsbD 0 }

/-- What an addition or a subtraction computes: the result byte, the carry and the overflow. -/
structure Sum where
  result : Byte
  carry : Bool
  overflow : Bool
  deriving DecidableEq, Repr

/-- `AddBin(a, m, c)`: the exact sum, narrowed; C' is the carry out of bit 7, V' the signed overflow (R180). -/
def addBin (a m : Byte) (c : Bool) : Sum :=
  let s := a.toNat + m.toNat + carryNat c
  let r := BitVec.ofNat 8 s
  { result := r, carry := decide (256 ≤ s), overflow := ((a ^^^ r) &&& (m ^^^ r)).msb }

/-- The low digit of `AddDec` after its adjust line (R181). -/
def addDecLow (a m : Byte) (c : Bool) : Nat :=
  let al := a.toNat % 16 + m.toNat % 16 + carryNat c
  if 0x0A ≤ al then (al + 0x06) % 16 + 0x10 else al

/-- `AddDec(a, m, c)`: the W65C02S decimal addition, result and carry (R181). -/
def addDec (a m : Byte) (c : Bool) : Byte × Bool :=
  let s := a.toNat / 16 * 16 + m.toNat / 16 * 16 + addDecLow a m c
  let s := if 0xA0 ≤ s then s + 0x60 else s
  (BitVec.ofNat 8 s, decide (0x100 ≤ s))

/-- `SubDec(a, m, c)`: the W65C02S decimal subtraction, result and carry (R182). -/
def subDec (a m : Byte) (c : Bool) : Byte × Bool :=
  let al : Int := (a.toNat % 16 : Nat) - (m.toNat % 16 : Nat) + (carryNat c : Nat) - 1
  let d : Int := (a.toNat : Nat) - (m.toNat : Nat) + (carryNat c : Nat) - 1
  let s := if d < 0 then d - 0x60 else d
  let s := if al < 0 then s - 0x06 else s
  (BitVec.ofInt 8 s, decide (0 ≤ d))

/-- A byte whose two nibbles are decimal digits. -/
def isBcd (a : Byte) : Bool := decide (a.toNat / 16 ≤ 9) && decide (a.toNat % 16 ≤ 9)

/-- The default DecimalV of R183. -/
def decimalVDefault (op : DecimalOp) (a m : Byte) (c : Bool) : Bool :=
  match op with
  | .adc =>
    let t := signed8 (a &&& 0xF0#8) + signed8 (m &&& 0xF0#8) + (addDecLow a m c : Nat)
    decide (t < -128) || decide (127 < t)
  | .sbc => (addBin a (~~~m) c).overflow

/-- The default DecimalNonBcd of R183: the same algorithms. -/
def decimalNonBcdDefault (op : DecimalOp) (a m : Byte) (c : Bool) : Byte × Bool :=
  match op with
  | .adc => addDec a m c
  | .sbc => subDec a m c

/-- DecimalV of the core: the open parameter, or the spec's default (R183, D18; log 6). -/
def decimalV (choice : DecimalChoice) (op : DecimalOp) (a m : Byte) (c : Bool) : Bool :=
  match choice with
  | .free => Config.decimalV op a m c
  | .w65c02s => decimalVDefault op a m c

/-- DecimalNonBcd of the core: the open parameter, or the spec's default (R183, D18; log 6). -/
def decimalNonBcd (choice : DecimalChoice) (op : DecimalOp) (a m : Byte) (c : Bool) : Byte × Bool :=
  match choice with
  | .free => Config.decimalNonBcd op a m c
  | .w65c02s => decimalNonBcdDefault op a m c

/-- What ADC computes from A, M and C (R184). -/
def adcSum (s : State) (m : Byte) : Sum :=
  if s.D then
    let rc := if isBcd s.A && isBcd m then addDec s.A m s.C else decimalNonBcd s.params.decimal .adc s.A m s.C
    { result := rc.1, carry := rc.2, overflow := decimalV s.params.decimal .adc s.A m s.C }
  else addBin s.A m s.C

/-- What SBC computes from A, M and C; C = 1 means no borrow (R185). -/
def sbcSum (s : State) (m : Byte) : Sum :=
  if s.D then
    let rc := if isBcd s.A && isBcd m then subDec s.A m s.C else decimalNonBcd s.params.decimal .sbc s.A m s.C
    { result := rc.1, carry := rc.2, overflow := decimalV s.params.decimal .sbc s.A m s.C }
  else addBin s.A (~~~m) s.C

/-- `A <- r; C <- c'; V <- v'; SetNZ(r)`, the end of ADC and SBC (R184, R185). -/
def setSum (r : Sum) (s : State) : State :=
  setNZ r.result { s with A := r.result, C := r.carry, V := r.overflow }

/-- `Compare(reg, m)`: C the unsigned comparison, Z equality, N bit 7 of the difference (R189). -/
def compareFlags (reg m : Byte) (s : State) : State :=
  { s with C := decide (m.toNat ≤ reg.toNat), Z := reg == m, N := (reg - m).msb }

/-- `C <- c; SetNZ(r)`, the flags of the shifts and rotates (R201 to R204). -/
def shiftFlags (r : Byte) (c : Bool) (s : State) : State := setNZ r { s with C := c }

/-- `Z <- 1 if (A & M) = 0 else 0` (R192, R211, R212). -/
def testFlags (m : Byte) (s : State) : State := { s with Z := (s.A &&& m) == 0x00#8 }

end Sys2Proof.Machine
end

