-- ==== Sys2Proof/Machine/Ops.lean ====
section
/-! DEFINITION. The named operations every instruction is made of: the memory primitives (00_scope.md R15), the
stack (10_state.md R35), taking an interrupt or BRK and returning from it (60_exceptions.md R347 to R353,
45_control.md R300, R301). An operation answers a state or the fault that ends the step. -/

namespace Sys2Proof.Machine

/-- The outcome of an instruction or a step. -/
abbrev StepOutcome := Host.Outcome State Fault Refusal

/-- An operation's answer as an outcome: a fault carries no state, so the changes made before it are discarded
(R342; log 7). -/
def answer (r : Except Fault State) : StepOutcome :=
  match r with
  | .ok s => .next s
  | .error f => .fault f

/-- `MemRead(addr, 1)`; an Unimplemented answer raises BusFault (R15, R341). -/
def readByte (a : Word) (s : State) : Except Fault Byte :=
  match s.bus.read a with
  | .ok b => .ok b
  | .error r => .error (.busFault r a)

/-- `MemWrite(addr, 1, v)`; an Unimplemented answer raises BusFault (R15, R341). -/
def writeByte (a : Word) (v : Byte) (s : State) : Except Fault State :=
  match s.bus.write a v with
  | .ok m => .ok { s with bus := m }
  | .error r => .error (.busFault r a)

/-- `Read16(a)`: little-endian, `a` first, then `(a + 1) mod 65536` (R15, R62). -/
def read16 (a : Word) (s : State) : Except Fault Word := do
  let lo ← readByte a s
  let hi ← readByte (a + 1#16) s
  return concat16 hi lo

/-- `Read16zp(z)`: `z` first, then `(z + 1) mod 256`, both in the zero page (R15, C2). -/
def read16zp (z : Byte) (s : State) : Except Fault Word := do
  let lo ← readByte (zext16 z) s
  let hi ← readByte (zext16 (z + 1#8)) s
  return concat16 hi lo

/-- STACK_PAGE = 0x01 (R11, R34, D4). -/
def stackPage : Byte := 0x01#8

/-- The address of the stack slot `sp`: `concat16(STACK_PAGE, sp)` (R34). -/
def stackAddr (sp : Byte) : Word := concat16 stackPage sp

/-- `Push(v)`: write at SP, then decrement SP mod 256 (R35). -/
def push (v : Byte) (s : State) : Except Fault State := do
  let t ← writeByte (stackAddr s.SP) v s
  return { t with SP := s.SP - 1#8 }

/-- `Pull()`: increment SP mod 256, then read (R35). -/
def pull (s : State) : Except Fault (Byte × State) := do
  let b ← readByte (stackAddr (s.SP + 1#8)) s
  return (b, { s with SP := s.SP + 1#8 })

/-- Push a word, high byte first, so that it lies little-endian in memory (R63, D15). -/
def pushWord (w : Word) (s : State) : Except Fault State := do
  let t ← push (highByte w) s
  push (lowByte w) t

/-- Pull a word, low byte first (R63, D15). -/
def pullWord (s : State) : Except Fault (Word × State) := do
  let (lo, t) ← pull s
  let (hi, u) ← pull t
  return (concat16 hi lo, u)

/-- VEC_NMI (R11, R351, D5). -/
def vecNmi : Word := 0xFFFA#16
/-- VEC_RESET (R11, R351, D5). -/
def vecReset : Word := 0xFFFC#16
/-- VEC_IRQ, shared by BRK (R11, R351, D5, R301). -/
def vecIrq : Word := 0xFFFE#16

/-- The two hardware interrupt kinds (R345). -/
inductive Interrupt where
  | nmi
  | irq
  deriving DecidableEq, Repr

/-- `VEC_k` (R345, R350). -/
def vectorOf : Interrupt → Word
  | .nmi => vecNmi
  | .irq => vecIrq

/-- Taking an interrupt or BRK through a vector: push PC (high byte, low byte) and the P image with break bit
`brk`, set I, clear D if INTERRUPT_CLEARS_D, load PC from the vector (R350, R301). The vector is read after
the pushes (R67, R351; log 16). -/
def enterVector (vector : Word) (brk : Bool) (s : State) : Except Fault State := do
  let t ← pushWord s.PC s
  let u ← push (pImage brk t) t
  let pc ← read16 vector u
  return { u with I := true, D := if s.params.interruptClearsD then false else s.D, PC := pc }

/-- Clear the pending bit of the interrupt taken (R41, R350). -/
def clearPending (k : Interrupt) (s : State) : State :=
  match k with
  | .nmi => { s with pendingNmi := false }
  | .irq => { s with pendingIrq := false }

/-- `Enter(k)`: hardware interrupt entry (R350). -/
def enterInterrupt (k : Interrupt) (s : State) : Except Fault State := do
  let t ← enterVector (vectorOf k) false s
  return clearPending k { t with inService := true, mode := .running }

/-- The return from a hardware interrupt or BRK: flags, PC low, PC high, in_service cleared (R300, R353). -/
def returnFromInterrupt (s : State) : Except Fault State := do
  let (p, t) ← pull s
  let (pc, u) ← pullWord (loadFlags p t)
  return { u with PC := pc, inService := false }

/-- `gated = SERVICE_GATE and in_service = 1` (R347). -/
def gated (s : State) : Bool := s.params.serviceGate && s.inService

/-- NMI due (R347). -/
def nmiDue (s : State) : Bool := s.pendingNmi && !gated s

/-- IRQ due (R347). -/
def irqDue (s : State) : Bool := s.pendingIrq && !s.I && !gated s

/-- `InterruptCheck()`: at most one entry, NMI before IRQ (R348, R349). -/
def interruptCheck (s : State) : Except Fault State :=
  if nmiDue s then enterInterrupt .nmi s
  else if irqDue s then enterInterrupt .irq s
  else .ok s

/-- What a Running step does after the instruction: the check, unless it executed STP (R100, R349). -/
def endOfStep (s : State) : Except Fault State :=
  match s.mode with
  | .stopped => .ok s
  | .running | .waiting => interruptCheck s

/-- A Running step from its instruction's outcome on: the check, or the fault that ends the step (R100, R342). -/
def finishStep (o : StepOutcome) : StepOutcome :=
  match o with
  | .next t => answer (endOfStep t)
  | .fault f => .fault f
  | .refused r => .refused r

/-- A pending request wakes a Waiting core (R100, R352). -/
def wakes (s : State) : Bool := s.pendingNmi || s.pendingIrq

/-- The step that wakes a Waiting core: mode Running, then the check; no instruction runs (R100, R352). -/
def wake (s : State) : Except Fault State := interruptCheck { s with mode := .running }

/-- The step returns `hold`: Stopped, or Waiting with no request pending (R352). -/
def holds (s : State) : Bool :=
  match s.mode with
  | .running => false
  | .waiting => !wakes s
  | .stopped => true

end Sys2Proof.Machine
end

