-- ==== Sys2Proof/Machine/Operands.lean ====
section
/-! DEFINITION. The addressing-mode resolver (40_addressing.md R130 to R148): every operand form, and how an
instruction of each access class uses it (R147). Implied and the branch offsets need no resolving: the
instruction names them itself (R131, R145, R146). -/

namespace Sys2Proof.Machine

/-- The memory modes: those that give an effective address (R134 to R144). -/
inductive MemMode where
  | zeroPage (z : Byte)
  | zeroPageX (z : Byte)
  | zeroPageY (z : Byte)
  | absolute (w : Word)
  | absoluteX (w : Word)
  | absoluteY (w : Word)
  | zeroPageIndirect (z : Byte)
  | indirectX (z : Byte)
  | indirectY (z : Byte)
  | indirect (w : Word)
  | absoluteIndexedIndirect (w : Word)
  deriving DecidableEq, Repr

/-- The operand of a read-class instruction: Immediate (R133) or a memory mode. -/
inductive Src where
  | imm (v : Byte)
  | mem (m : MemMode)
  deriving DecidableEq, Repr

/-- The operand of a read-modify-write instruction: Accumulator (R132) or a memory mode. -/
inductive Dst where
  | acc
  | mem (m : MemMode)
  deriving DecidableEq, Repr

/-- The effective address (R134 to R144). Zero-page sums are taken mod 256, all others mod 65536 (R71); the
only failure is a BusFault of a pointer read (R130). -/
def ea (m : MemMode) (s : State) : Except Fault Word :=
  match m with
  | .zeroPage z => .ok (zext16 z)
  | .zeroPageX z => .ok (zext16 (z + s.X))
  | .zeroPageY z => .ok (zext16 (z + s.Y))
  | .absolute w => .ok w
  | .absoluteX w => .ok (w + zext16 s.X)
  | .absoluteY w => .ok (w + zext16 s.Y)
  | .zeroPageIndirect z => read16zp z s
  | .indirectX z => read16zp (z + s.X) s
  | .indirectY z => do
    let base ← read16zp z s
    return base + zext16 s.Y
  | .indirect w => read16 w s
  | .absoluteIndexedIndirect w => read16 (w + zext16 s.X) s

/-- Read class: the operand byte M (R147). -/
def readSrc (src : Src) (s : State) : Except Fault Byte :=
  match src with
  | .imm v => .ok v
  | .mem m => do
    let a ← ea m s
    readByte a s

/-- Write class: the value is written at EA, with no read of EA first (R147). -/
def writeMem (m : MemMode) (v : Byte) (s : State) : Except Fault State := do
  let a ← ea m s
  writeByte a v s

/-- RMW class: M is read once, `flags M` is applied, and `result M` is written back once, to A or at the same
EA (R147, R200). Both are computed from the state the instruction began with. -/
def rmw (result : Byte → State → Byte) (flags : Byte → State → State) (dst : Dst) (s : State) :
    Except Fault State :=
  match dst with
  | .acc => .ok { flags s.A s with A := result s.A s }
  | .mem m => do
    let a ← ea m s
    let b ← readByte a s
    writeByte a (result b s) (flags b s)

/-- The branch target `(next + sext_16(offset)) mod 65536`; PC is already `next` (R270, R145, R146). -/
def branchTarget (offset : Byte) (s : State) : Word := s.PC + sext16 offset

end Sys2Proof.Machine
end

