-- ==== Sys2Proof/Machine/Alu.lean ====
section
/-! DEFINITION. Arithmetic, logic, compare and bit test (42_alu.md R184 to R192). -/

namespace Sys2Proof.Machine

/-- `A, C, V, N, Z` from A + M + C, binary or decimal (R184). -/
def addWithCarry (src : Src) (s : State) : Except Fault State := do
  let m ← readSrc src s
  return setSum (adcSum s m) s

/-- `A, C, V, N, Z` from A - M - (1 - C), binary or decimal (R185). -/
def subWithBorrow (src : Src) (s : State) : Except Fault State := do
  let m ← readSrc src s
  return setSum (sbcSum s m) s

/-- `A <- A & M; SetNZ(A)` (R186). -/
def andA (src : Src) (s : State) : Except Fault State := do
  let m ← readSrc src s
  return setNZ (s.A &&& m) { s with A := s.A &&& m }

/-- `A <- A | M; SetNZ(A)` (R187). -/
def orA (src : Src) (s : State) : Except Fault State := do
  let m ← readSrc src s
  return setNZ (s.A ||| m) { s with A := s.A ||| m }

/-- `A <- A ^ M; SetNZ(A)` (R188). -/
def eorA (src : Src) (s : State) : Except Fault State := do
  let m ← readSrc src s
  return setNZ (s.A ^^^ m) { s with A := s.A ^^^ m }

/-- `Compare(reg, M)` (R189, R190, R191). -/
def compareWith (reg : Byte) (src : Src) (s : State) : Except Fault State := do
  let m ← readSrc src s
  return compareFlags reg m s

/-- BIT with a memory operand: Z from A & M, N and V from bits 7 and 6 of M (R192). -/
def bitTest (mode : MemMode) (s : State) : Except Fault State := do
  let m ← readSrc (.mem mode) s
  return { testFlags m s with N := m.getLsbD 7, V := m.getLsbD 6 }

/-- BIT immediate: Z only (R192). -/
def bitTestImmediate (v : Byte) (s : State) : Except Fault State := do
  let m ← readSrc (.imm v) s
  return testFlags m s

/-- ADC (zero page,X), 0x61 (R184). -/
def execAdcIndX (z : Byte) (s : State) : StepOutcome := answer (addWithCarry (.mem (.indirectX z)) s)

/-- ADC zero page, 0x65 (R184). -/
def execAdcZp (z : Byte) (s : State) : StepOutcome := answer (addWithCarry (.mem (.zeroPage z)) s)

/-- ADC immediate, 0x69 (R184). -/
def execAdcImm (v : Byte) (s : State) : StepOutcome := answer (addWithCarry (.imm v) s)

/-- ADC absolute, 0x6D (R184). -/
def execAdcAbs (w : Word) (s : State) : StepOutcome := answer (addWithCarry (.mem (.absolute w)) s)

/-- ADC (zero page),Y, 0x71 (R184). -/
def execAdcIndY (z : Byte) (s : State) : StepOutcome := answer (addWithCarry (.mem (.indirectY z)) s)

/-- ADC (zero page), 0x72 (R184). -/
def execAdcZpInd (z : Byte) (s : State) : StepOutcome := answer (addWithCarry (.mem (.zeroPageIndirect z)) s)

/-- ADC zero page,X, 0x75 (R184). -/
def execAdcZpX (z : Byte) (s : State) : StepOutcome := answer (addWithCarry (.mem (.zeroPageX z)) s)

/-- ADC absolute,Y, 0x79 (R184). -/
def execAdcAbsY (w : Word) (s : State) : StepOutcome := answer (addWithCarry (.mem (.absoluteY w)) s)

/-- ADC absolute,X, 0x7D (R184). -/
def execAdcAbsX (w : Word) (s : State) : StepOutcome := answer (addWithCarry (.mem (.absoluteX w)) s)

/-- SBC (zero page,X), 0xE1 (R185). -/
def execSbcIndX (z : Byte) (s : State) : StepOutcome := answer (subWithBorrow (.mem (.indirectX z)) s)

/-- SBC zero page, 0xE5 (R185). -/
def execSbcZp (z : Byte) (s : State) : StepOutcome := answer (subWithBorrow (.mem (.zeroPage z)) s)

/-- SBC immediate, 0xE9 (R185). -/
def execSbcImm (v : Byte) (s : State) : StepOutcome := answer (subWithBorrow (.imm v) s)

/-- SBC absolute, 0xED (R185). -/
def execSbcAbs (w : Word) (s : State) : StepOutcome := answer (subWithBorrow (.mem (.absolute w)) s)

/-- SBC (zero page),Y, 0xF1 (R185). -/
def execSbcIndY (z : Byte) (s : State) : StepOutcome := answer (subWithBorrow (.mem (.indirectY z)) s)

/-- SBC (zero page), 0xF2 (R185). -/
def execSbcZpInd (z : Byte) (s : State) : StepOutcome := answer (subWithBorrow (.mem (.zeroPageIndirect z)) s)

/-- SBC zero page,X, 0xF5 (R185). -/
def execSbcZpX (z : Byte) (s : State) : StepOutcome := answer (subWithBorrow (.mem (.zeroPageX z)) s)

/-- SBC absolute,Y, 0xF9 (R185). -/
def execSbcAbsY (w : Word) (s : State) : StepOutcome := answer (subWithBorrow (.mem (.absoluteY w)) s)

/-- SBC absolute,X, 0xFD (R185). -/
def execSbcAbsX (w : Word) (s : State) : StepOutcome := answer (subWithBorrow (.mem (.absoluteX w)) s)

/-- AND (zero page,X), 0x21 (R186). -/
def execAndIndX (z : Byte) (s : State) : StepOutcome := answer (andA (.mem (.indirectX z)) s)

/-- AND zero page, 0x25 (R186). -/
def execAndZp (z : Byte) (s : State) : StepOutcome := answer (andA (.mem (.zeroPage z)) s)

/-- AND immediate, 0x29 (R186). -/
def execAndImm (v : Byte) (s : State) : StepOutcome := answer (andA (.imm v) s)

/-- AND absolute, 0x2D (R186). -/
def execAndAbs (w : Word) (s : State) : StepOutcome := answer (andA (.mem (.absolute w)) s)

/-- AND (zero page),Y, 0x31 (R186). -/
def execAndIndY (z : Byte) (s : State) : StepOutcome := answer (andA (.mem (.indirectY z)) s)

/-- AND (zero page), 0x32 (R186). -/
def execAndZpInd (z : Byte) (s : State) : StepOutcome := answer (andA (.mem (.zeroPageIndirect z)) s)

/-- AND zero page,X, 0x35 (R186). -/
def execAndZpX (z : Byte) (s : State) : StepOutcome := answer (andA (.mem (.zeroPageX z)) s)

/-- AND absolute,Y, 0x39 (R186). -/
def execAndAbsY (w : Word) (s : State) : StepOutcome := answer (andA (.mem (.absoluteY w)) s)

/-- AND absolute,X, 0x3D (R186). -/
def execAndAbsX (w : Word) (s : State) : StepOutcome := answer (andA (.mem (.absoluteX w)) s)

/-- ORA (zero page,X), 0x01 (R187). -/
def execOraIndX (z : Byte) (s : State) : StepOutcome := answer (orA (.mem (.indirectX z)) s)

/-- ORA zero page, 0x05 (R187). -/
def execOraZp (z : Byte) (s : State) : StepOutcome := answer (orA (.mem (.zeroPage z)) s)

/-- ORA immediate, 0x09 (R187). -/
def execOraImm (v : Byte) (s : State) : StepOutcome := answer (orA (.imm v) s)

/-- ORA absolute, 0x0D (R187). -/
def execOraAbs (w : Word) (s : State) : StepOutcome := answer (orA (.mem (.absolute w)) s)

/-- ORA (zero page),Y, 0x11 (R187). -/
def execOraIndY (z : Byte) (s : State) : StepOutcome := answer (orA (.mem (.indirectY z)) s)

/-- ORA (zero page), 0x12 (R187). -/
def execOraZpInd (z : Byte) (s : State) : StepOutcome := answer (orA (.mem (.zeroPageIndirect z)) s)

/-- ORA zero page,X, 0x15 (R187). -/
def execOraZpX (z : Byte) (s : State) : StepOutcome := answer (orA (.mem (.zeroPageX z)) s)

/-- ORA absolute,Y, 0x19 (R187). -/
def execOraAbsY (w : Word) (s : State) : StepOutcome := answer (orA (.mem (.absoluteY w)) s)

/-- ORA absolute,X, 0x1D (R187). -/
def execOraAbsX (w : Word) (s : State) : StepOutcome := answer (orA (.mem (.absoluteX w)) s)

/-- EOR (zero page,X), 0x41 (R188). -/
def execEorIndX (z : Byte) (s : State) : StepOutcome := answer (eorA (.mem (.indirectX z)) s)

/-- EOR zero page, 0x45 (R188). -/
def execEorZp (z : Byte) (s : State) : StepOutcome := answer (eorA (.mem (.zeroPage z)) s)

/-- EOR immediate, 0x49 (R188). -/
def execEorImm (v : Byte) (s : State) : StepOutcome := answer (eorA (.imm v) s)

/-- EOR absolute, 0x4D (R188). -/
def execEorAbs (w : Word) (s : State) : StepOutcome := answer (eorA (.mem (.absolute w)) s)

/-- EOR (zero page),Y, 0x51 (R188). -/
def execEorIndY (z : Byte) (s : State) : StepOutcome := answer (eorA (.mem (.indirectY z)) s)

/-- EOR (zero page), 0x52 (R188). -/
def execEorZpInd (z : Byte) (s : State) : StepOutcome := answer (eorA (.mem (.zeroPageIndirect z)) s)

/-- EOR zero page,X, 0x55 (R188). -/
def execEorZpX (z : Byte) (s : State) : StepOutcome := answer (eorA (.mem (.zeroPageX z)) s)

/-- EOR absolute,Y, 0x59 (R188). -/
def execEorAbsY (w : Word) (s : State) : StepOutcome := answer (eorA (.mem (.absoluteY w)) s)

/-- EOR absolute,X, 0x5D (R188). -/
def execEorAbsX (w : Word) (s : State) : StepOutcome := answer (eorA (.mem (.absoluteX w)) s)

/-- CMP (zero page,X), 0xC1 (R189). -/
def execCmpIndX (z : Byte) (s : State) : StepOutcome := answer (compareWith s.A (.mem (.indirectX z)) s)

/-- CMP zero page, 0xC5 (R189). -/
def execCmpZp (z : Byte) (s : State) : StepOutcome := answer (compareWith s.A (.mem (.zeroPage z)) s)

/-- CMP immediate, 0xC9 (R189). -/
def execCmpImm (v : Byte) (s : State) : StepOutcome := answer (compareWith s.A (.imm v) s)

/-- CMP absolute, 0xCD (R189). -/
def execCmpAbs (w : Word) (s : State) : StepOutcome := answer (compareWith s.A (.mem (.absolute w)) s)

/-- CMP (zero page),Y, 0xD1 (R189). -/
def execCmpIndY (z : Byte) (s : State) : StepOutcome := answer (compareWith s.A (.mem (.indirectY z)) s)

/-- CMP (zero page), 0xD2 (R189). -/
def execCmpZpInd (z : Byte) (s : State) : StepOutcome := answer (compareWith s.A (.mem (.zeroPageIndirect z)) s)

/-- CMP zero page,X, 0xD5 (R189). -/
def execCmpZpX (z : Byte) (s : State) : StepOutcome := answer (compareWith s.A (.mem (.zeroPageX z)) s)

/-- CMP absolute,Y, 0xD9 (R189). -/
def execCmpAbsY (w : Word) (s : State) : StepOutcome := answer (compareWith s.A (.mem (.absoluteY w)) s)

/-- CMP absolute,X, 0xDD (R189). -/
def execCmpAbsX (w : Word) (s : State) : StepOutcome := answer (compareWith s.A (.mem (.absoluteX w)) s)

/-- CPX immediate, 0xE0 (R190). -/
def execCpxImm (v : Byte) (s : State) : StepOutcome := answer (compareWith s.X (.imm v) s)

/-- CPX zero page, 0xE4 (R190). -/
def execCpxZp (z : Byte) (s : State) : StepOutcome := answer (compareWith s.X (.mem (.zeroPage z)) s)

/-- CPX absolute, 0xEC (R190). -/
def execCpxAbs (w : Word) (s : State) : StepOutcome := answer (compareWith s.X (.mem (.absolute w)) s)

/-- CPY immediate, 0xC0 (R191). -/
def execCpyImm (v : Byte) (s : State) : StepOutcome := answer (compareWith s.Y (.imm v) s)

/-- CPY zero page, 0xC4 (R191). -/
def execCpyZp (z : Byte) (s : State) : StepOutcome := answer (compareWith s.Y (.mem (.zeroPage z)) s)

/-- CPY absolute, 0xCC (R191). -/
def execCpyAbs (w : Word) (s : State) : StepOutcome := answer (compareWith s.Y (.mem (.absolute w)) s)

/-- BIT zero page, 0x24 (R192). -/
def execBitZp (z : Byte) (s : State) : StepOutcome := answer (bitTest (.zeroPage z) s)

/-- BIT absolute, 0x2C (R192). -/
def execBitAbs (w : Word) (s : State) : StepOutcome := answer (bitTest (.absolute w) s)

/-- BIT zero page,X, 0x34 (R192). -/
def execBitZpX (z : Byte) (s : State) : StepOutcome := answer (bitTest (.zeroPageX z) s)

/-- BIT absolute,X, 0x3C (R192). -/
def execBitAbsX (w : Word) (s : State) : StepOutcome := answer (bitTest (.absoluteX w) s)

/-- BIT immediate, 0x89 (R192). -/
def execBitImm (v : Byte) (s : State) : StepOutcome := answer (bitTestImmediate v s)

end Sys2Proof.Machine
end

