-- ==== Sys2Proof/Machine/Control.lean ====
section
/-! DEFINITION. Control transfer (45_control.md R270 to R301). -/

namespace Sys2Proof.Machine

/-- `if cond: PC <- target`; PC is `next` already (R270). -/
def branchIf (cond : Bool) (offset : Byte) (s : State) : State :=
  if cond then { s with PC := branchTarget offset s } else s

/-- Branch if bit `n` of a zero-page byte is `want`; the byte is read once and not written (R280). -/
def branchOnBit (n : Nat) (want : Bool) (z offset : Byte) (s : State) : Except Fault State := do
  let m ← readSrc (.mem (.zeroPage z)) s
  return branchIf (m.getLsbD n == want) offset s

/-- `PC <- EA` (R297). -/
def jumpTo (mode : MemMode) (s : State) : Except Fault State := do
  let target ← ea mode s
  return { s with PC := target }

/-- Push `next - 1`, the address of JSR's last byte, high byte first; `PC <- EA` (R298). -/
def callSubroutine (target : Word) (s : State) : Except Fault State := do
  let t ← pushWord (s.PC - 1#16) s
  return { t with PC := target }

/-- Pull the return address, low byte first, and add 1 (R299). -/
def returnFromSubroutine (s : State) : Except Fault State := do
  let (w, t) ← pullWord s
  return { t with PC := w + 1#16 }

/-- BPL, 0x10 (R271). -/
def execBpl (r : Byte) (s : State) : StepOutcome := .next (branchIf (!s.N) r s)

/-- BMI, 0x30 (R272). -/
def execBmi (r : Byte) (s : State) : StepOutcome := .next (branchIf s.N r s)

/-- BVC, 0x50 (R273). -/
def execBvc (r : Byte) (s : State) : StepOutcome := .next (branchIf (!s.V) r s)

/-- BVS, 0x70 (R274). -/
def execBvs (r : Byte) (s : State) : StepOutcome := .next (branchIf s.V r s)

/-- BCC, 0x90 (R275). -/
def execBcc (r : Byte) (s : State) : StepOutcome := .next (branchIf (!s.C) r s)

/-- BCS, 0xB0 (R276). -/
def execBcs (r : Byte) (s : State) : StepOutcome := .next (branchIf s.C r s)

/-- BNE, 0xD0 (R277). -/
def execBne (r : Byte) (s : State) : StepOutcome := .next (branchIf (!s.Z) r s)

/-- BEQ, 0xF0 (R278). -/
def execBeq (r : Byte) (s : State) : StepOutcome := .next (branchIf s.Z r s)

/-- BRA, 0x80 (R279). -/
def execBra (r : Byte) (s : State) : StepOutcome := .next (branchIf true r s)

/-- BBR0, 0x0F (R281). -/
def execBbr0 (z : Byte) (r : Byte) (s : State) : StepOutcome := answer (branchOnBit 0 false z r s)

/-- BBR1, 0x1F (R282). -/
def execBbr1 (z : Byte) (r : Byte) (s : State) : StepOutcome := answer (branchOnBit 1 false z r s)

/-- BBR2, 0x2F (R283). -/
def execBbr2 (z : Byte) (r : Byte) (s : State) : StepOutcome := answer (branchOnBit 2 false z r s)

/-- BBR3, 0x3F (R284). -/
def execBbr3 (z : Byte) (r : Byte) (s : State) : StepOutcome := answer (branchOnBit 3 false z r s)

/-- BBR4, 0x4F (R285). -/
def execBbr4 (z : Byte) (r : Byte) (s : State) : StepOutcome := answer (branchOnBit 4 false z r s)

/-- BBR5, 0x5F (R286). -/
def execBbr5 (z : Byte) (r : Byte) (s : State) : StepOutcome := answer (branchOnBit 5 false z r s)

/-- BBR6, 0x6F (R287). -/
def execBbr6 (z : Byte) (r : Byte) (s : State) : StepOutcome := answer (branchOnBit 6 false z r s)

/-- BBR7, 0x7F (R288). -/
def execBbr7 (z : Byte) (r : Byte) (s : State) : StepOutcome := answer (branchOnBit 7 false z r s)

/-- BBS0, 0x8F (R289). -/
def execBbs0 (z : Byte) (r : Byte) (s : State) : StepOutcome := answer (branchOnBit 0 true z r s)

/-- BBS1, 0x9F (R290). -/
def execBbs1 (z : Byte) (r : Byte) (s : State) : StepOutcome := answer (branchOnBit 1 true z r s)

/-- BBS2, 0xAF (R291). -/
def execBbs2 (z : Byte) (r : Byte) (s : State) : StepOutcome := answer (branchOnBit 2 true z r s)

/-- BBS3, 0xBF (R292). -/
def execBbs3 (z : Byte) (r : Byte) (s : State) : StepOutcome := answer (branchOnBit 3 true z r s)

/-- BBS4, 0xCF (R293). -/
def execBbs4 (z : Byte) (r : Byte) (s : State) : StepOutcome := answer (branchOnBit 4 true z r s)

/-- BBS5, 0xDF (R294). -/
def execBbs5 (z : Byte) (r : Byte) (s : State) : StepOutcome := answer (branchOnBit 5 true z r s)

/-- BBS6, 0xEF (R295). -/
def execBbs6 (z : Byte) (r : Byte) (s : State) : StepOutcome := answer (branchOnBit 6 true z r s)

/-- BBS7, 0xFF (R296). -/
def execBbs7 (z : Byte) (r : Byte) (s : State) : StepOutcome := answer (branchOnBit 7 true z r s)

/-- JMP absolute, 0x4C (R297). -/
def execJmpAbs (w : Word) (s : State) : StepOutcome := answer (jumpTo (.absolute w) s)

/-- JMP (absolute), 0x6C (R297). -/
def execJmpInd (w : Word) (s : State) : StepOutcome := answer (jumpTo (.indirect w) s)

/-- JMP (absolute,X), 0x7C (R297). -/
def execJmpAbsIndX (w : Word) (s : State) : StepOutcome := answer (jumpTo (.absoluteIndexedIndirect w) s)

/-- JSR absolute, 0x20 (R298). -/
def execJsr (w : Word) (s : State) : StepOutcome := answer (callSubroutine w s)

/-- RTS, 0x60 (R299). -/
def execRts (s : State) : StepOutcome := answer (returnFromSubroutine s)

/-- RTI, 0x40 (R300). -/
def execRti (s : State) : StepOutcome := answer (returnFromInterrupt s)

/-- BRK immediate, 0x00 (R301). -/
def execBrk (_v : Byte) (s : State) : StepOutcome := answer (enterVector vecIrq true s)

end Sys2Proof.Machine
end

