-- ==== Sys2Proof/Machine/LoadStore.lean ====
section
/-! DEFINITION. Loads, stores and register transfers (41_load_store.md R160 to R172). -/

namespace Sys2Proof.Machine

/-- `A <- M; SetNZ(A)` (R160). -/
def loadA (src : Src) (s : State) : Except Fault State := do
  let m ← readSrc src s
  return setNZ m { s with A := m }

/-- `X <- M; SetNZ(X)` (R161). -/
def loadX (src : Src) (s : State) : Except Fault State := do
  let m ← readSrc src s
  return setNZ m { s with X := m }

/-- `Y <- M; SetNZ(Y)` (R162). -/
def loadY (src : Src) (s : State) : Except Fault State := do
  let m ← readSrc src s
  return setNZ m { s with Y := m }

/-- LDA (zero page,X), 0xA1 (R160). -/
def execLdaIndX (z : Byte) (s : State) : StepOutcome := answer (loadA (.mem (.indirectX z)) s)

/-- LDA zero page, 0xA5 (R160). -/
def execLdaZp (z : Byte) (s : State) : StepOutcome := answer (loadA (.mem (.zeroPage z)) s)

/-- LDA immediate, 0xA9 (R160). -/
def execLdaImm (v : Byte) (s : State) : StepOutcome := answer (loadA (.imm v) s)

/-- LDA absolute, 0xAD (R160). -/
def execLdaAbs (w : Word) (s : State) : StepOutcome := answer (loadA (.mem (.absolute w)) s)

/-- LDA (zero page),Y, 0xB1 (R160). -/
def execLdaIndY (z : Byte) (s : State) : StepOutcome := answer (loadA (.mem (.indirectY z)) s)

/-- LDA (zero page), 0xB2 (R160). -/
def execLdaZpInd (z : Byte) (s : State) : StepOutcome := answer (loadA (.mem (.zeroPageIndirect z)) s)

/-- LDA zero page,X, 0xB5 (R160). -/
def execLdaZpX (z : Byte) (s : State) : StepOutcome := answer (loadA (.mem (.zeroPageX z)) s)

/-- LDA absolute,Y, 0xB9 (R160). -/
def execLdaAbsY (w : Word) (s : State) : StepOutcome := answer (loadA (.mem (.absoluteY w)) s)

/-- LDA absolute,X, 0xBD (R160). -/
def execLdaAbsX (w : Word) (s : State) : StepOutcome := answer (loadA (.mem (.absoluteX w)) s)

/-- LDX immediate, 0xA2 (R161). -/
def execLdxImm (v : Byte) (s : State) : StepOutcome := answer (loadX (.imm v) s)

/-- LDX zero page, 0xA6 (R161). -/
def execLdxZp (z : Byte) (s : State) : StepOutcome := answer (loadX (.mem (.zeroPage z)) s)

/-- LDX absolute, 0xAE (R161). -/
def execLdxAbs (w : Word) (s : State) : StepOutcome := answer (loadX (.mem (.absolute w)) s)

/-- LDX zero page,Y, 0xB6 (R161). -/
def execLdxZpY (z : Byte) (s : State) : StepOutcome := answer (loadX (.mem (.zeroPageY z)) s)

/-- LDX absolute,Y, 0xBE (R161). -/
def execLdxAbsY (w : Word) (s : State) : StepOutcome := answer (loadX (.mem (.absoluteY w)) s)

/-- LDY immediate, 0xA0 (R162). -/
def execLdyImm (v : Byte) (s : State) : StepOutcome := answer (loadY (.imm v) s)

/-- LDY zero page, 0xA4 (R162). -/
def execLdyZp (z : Byte) (s : State) : StepOutcome := answer (loadY (.mem (.zeroPage z)) s)

/-- LDY absolute, 0xAC (R162). -/
def execLdyAbs (w : Word) (s : State) : StepOutcome := answer (loadY (.mem (.absolute w)) s)

/-- LDY zero page,X, 0xB4 (R162). -/
def execLdyZpX (z : Byte) (s : State) : StepOutcome := answer (loadY (.mem (.zeroPageX z)) s)

/-- LDY absolute,X, 0xBC (R162). -/
def execLdyAbsX (w : Word) (s : State) : StepOutcome := answer (loadY (.mem (.absoluteX w)) s)

/-- STA (zero page,X), 0x81 (R163). -/
def execStaIndX (z : Byte) (s : State) : StepOutcome := answer (writeMem (.indirectX z) s.A s)

/-- STA zero page, 0x85 (R163). -/
def execStaZp (z : Byte) (s : State) : StepOutcome := answer (writeMem (.zeroPage z) s.A s)

/-- STA absolute, 0x8D (R163). -/
def execStaAbs (w : Word) (s : State) : StepOutcome := answer (writeMem (.absolute w) s.A s)

/-- STA (zero page),Y, 0x91 (R163). -/
def execStaIndY (z : Byte) (s : State) : StepOutcome := answer (writeMem (.indirectY z) s.A s)

/-- STA (zero page), 0x92 (R163). -/
def execStaZpInd (z : Byte) (s : State) : StepOutcome := answer (writeMem (.zeroPageIndirect z) s.A s)

/-- STA zero page,X, 0x95 (R163). -/
def execStaZpX (z : Byte) (s : State) : StepOutcome := answer (writeMem (.zeroPageX z) s.A s)

/-- STA absolute,Y, 0x99 (R163). -/
def execStaAbsY (w : Word) (s : State) : StepOutcome := answer (writeMem (.absoluteY w) s.A s)

/-- STA absolute,X, 0x9D (R163). -/
def execStaAbsX (w : Word) (s : State) : StepOutcome := answer (writeMem (.absoluteX w) s.A s)

/-- STX zero page, 0x86 (R164). -/
def execStxZp (z : Byte) (s : State) : StepOutcome := answer (writeMem (.zeroPage z) s.X s)

/-- STX absolute, 0x8E (R164). -/
def execStxAbs (w : Word) (s : State) : StepOutcome := answer (writeMem (.absolute w) s.X s)

/-- STX zero page,Y, 0x96 (R164). -/
def execStxZpY (z : Byte) (s : State) : StepOutcome := answer (writeMem (.zeroPageY z) s.X s)

/-- STY zero page, 0x84 (R165). -/
def execStyZp (z : Byte) (s : State) : StepOutcome := answer (writeMem (.zeroPage z) s.Y s)

/-- STY absolute, 0x8C (R165). -/
def execStyAbs (w : Word) (s : State) : StepOutcome := answer (writeMem (.absolute w) s.Y s)

/-- STY zero page,X, 0x94 (R165). -/
def execStyZpX (z : Byte) (s : State) : StepOutcome := answer (writeMem (.zeroPageX z) s.Y s)

/-- STZ zero page, 0x64 (R166). -/
def execStzZp (z : Byte) (s : State) : StepOutcome := answer (writeMem (.zeroPage z) 0x00#8 s)

/-- STZ zero page,X, 0x74 (R166). -/
def execStzZpX (z : Byte) (s : State) : StepOutcome := answer (writeMem (.zeroPageX z) 0x00#8 s)

/-- STZ absolute, 0x9C (R166). -/
def execStzAbs (w : Word) (s : State) : StepOutcome := answer (writeMem (.absolute w) 0x00#8 s)

/-- STZ absolute,X, 0x9E (R166). -/
def execStzAbsX (w : Word) (s : State) : StepOutcome := answer (writeMem (.absoluteX w) 0x00#8 s)

/-- TAX, 0xAA (R167). -/
def execTax (s : State) : StepOutcome := .next (setNZ s.A { s with X := s.A })

/-- TAY, 0xA8 (R168). -/
def execTay (s : State) : StepOutcome := .next (setNZ s.A { s with Y := s.A })

/-- TXA, 0x8A (R169). -/
def execTxa (s : State) : StepOutcome := .next (setNZ s.X { s with A := s.X })

/-- TYA, 0x98 (R170). -/
def execTya (s : State) : StepOutcome := .next (setNZ s.Y { s with A := s.Y })

/-- TSX, 0xBA (R171). -/
def execTsx (s : State) : StepOutcome := .next (setNZ s.SP { s with X := s.SP })

/-- TXS, 0x9A (R172). -/
def execTxs (s : State) : StepOutcome := .next { s with SP := s.X }

end Sys2Proof.Machine
end

