-- ==== Sys2Proof/Machine/ReadModifyWrite.lean ====
section
/-! DEFINITION. Shifts, rotates, increments, decrements, test-and-set, test-and-reset, bit set and reset
(43_rmw.md R200 to R228). -/

namespace Sys2Proof.Machine

/-- `r = (M * 2) mod 256; C <- M[7]; SetNZ(r)` (R201). -/
def shiftLeft (dst : Dst) (s : State) : Except Fault State :=
  rmw (fun m _ => m <<< 1) (fun m t => shiftFlags (m <<< 1) (m.getLsbD 7) t) dst s

/-- `r = M div 2; C <- M[0]; SetNZ(r)` (R202). -/
def shiftRight (dst : Dst) (s : State) : Except Fault State :=
  rmw (fun m _ => m >>> 1) (fun m t => shiftFlags (m >>> 1) (m.getLsbD 0) t) dst s

/-- `r = (M * 2 + C) mod 256; C <- M[7]; SetNZ(r)`: the old C enters bit 0 (R203). -/
def rotateLeft (dst : Dst) (s : State) : Except Fault State :=
  rmw (fun m t => m <<< 1 ||| bitAt 0 t.C) (fun m t => shiftFlags (m <<< 1 ||| bitAt 0 t.C) (m.getLsbD 7) t)
    dst s

/-- `r = (M div 2) + C * 0x80; C <- M[0]; SetNZ(r)`: the old C enters bit 7 (R204). -/
def rotateRight (dst : Dst) (s : State) : Except Fault State :=
  rmw (fun m t => m >>> 1 ||| bitAt 7 t.C) (fun m t => shiftFlags (m >>> 1 ||| bitAt 7 t.C) (m.getLsbD 0) t)
    dst s

/-- `r = (M + 1) mod 256; SetNZ(r)` (R205). -/
def increment (dst : Dst) (s : State) : Except Fault State :=
  rmw (fun m _ => m + 1#8) (fun m t => setNZ (m + 1#8) t) dst s

/-- `r = (M - 1) mod 256; SetNZ(r)` (R206). -/
def decrement (dst : Dst) (s : State) : Except Fault State :=
  rmw (fun m _ => m - 1#8) (fun m t => setNZ (m - 1#8) t) dst s

/-- `Z` from A & M, then `r = M | A` (R211). -/
def testAndSet (mode : MemMode) (s : State) : Except Fault State :=
  rmw (fun m t => m ||| t.A) testFlags (.mem mode) s

/-- `Z` from A & M, then `r = M & ~A` (R212). -/
def testAndReset (mode : MemMode) (s : State) : Except Fault State :=
  rmw (fun m t => m &&& ~~~t.A) testFlags (.mem mode) s

/-- `r = M & ~(1 << n)` in the zero page; no flag (R213 to R220). -/
def resetBit (n : Nat) (z : Byte) (s : State) : Except Fault State :=
  rmw (fun m _ => m &&& ~~~bitAt n true) (fun _ t => t) (.mem (.zeroPage z)) s

/-- `r = M | (1 << n)` in the zero page; no flag (R221 to R228). -/
def setBit (n : Nat) (z : Byte) (s : State) : Except Fault State :=
  rmw (fun m _ => m ||| bitAt n true) (fun _ t => t) (.mem (.zeroPage z)) s

/-- ASL zero page, 0x06 (R201). -/
def execAslZp (z : Byte) (s : State) : StepOutcome := answer (shiftLeft (.mem (.zeroPage z)) s)

/-- ASL A, 0x0A (R201). -/
def execAslAcc (s : State) : StepOutcome := answer (shiftLeft .acc s)

/-- ASL absolute, 0x0E (R201). -/
def execAslAbs (w : Word) (s : State) : StepOutcome := answer (shiftLeft (.mem (.absolute w)) s)

/-- ASL zero page,X, 0x16 (R201). -/
def execAslZpX (z : Byte) (s : State) : StepOutcome := answer (shiftLeft (.mem (.zeroPageX z)) s)

/-- ASL absolute,X, 0x1E (R201). -/
def execAslAbsX (w : Word) (s : State) : StepOutcome := answer (shiftLeft (.mem (.absoluteX w)) s)

/-- LSR zero page, 0x46 (R202). -/
def execLsrZp (z : Byte) (s : State) : StepOutcome := answer (shiftRight (.mem (.zeroPage z)) s)

/-- LSR A, 0x4A (R202). -/
def execLsrAcc (s : State) : StepOutcome := answer (shiftRight .acc s)

/-- LSR absolute, 0x4E (R202). -/
def execLsrAbs (w : Word) (s : State) : StepOutcome := answer (shiftRight (.mem (.absolute w)) s)

/-- LSR zero page,X, 0x56 (R202). -/
def execLsrZpX (z : Byte) (s : State) : StepOutcome := answer (shiftRight (.mem (.zeroPageX z)) s)

/-- LSR absolute,X, 0x5E (R202). -/
def execLsrAbsX (w : Word) (s : State) : StepOutcome := answer (shiftRight (.mem (.absoluteX w)) s)

/-- ROL zero page, 0x26 (R203). -/
def execRolZp (z : Byte) (s : State) : StepOutcome := answer (rotateLeft (.mem (.zeroPage z)) s)

/-- ROL A, 0x2A (R203). -/
def execRolAcc (s : State) : StepOutcome := answer (rotateLeft .acc s)

/-- ROL absolute, 0x2E (R203). -/
def execRolAbs (w : Word) (s : State) : StepOutcome := answer (rotateLeft (.mem (.absolute w)) s)

/-- ROL zero page,X, 0x36 (R203). -/
def execRolZpX (z : Byte) (s : State) : StepOutcome := answer (rotateLeft (.mem (.zeroPageX z)) s)

/-- ROL absolute,X, 0x3E (R203). -/
def execRolAbsX (w : Word) (s : State) : StepOutcome := answer (rotateLeft (.mem (.absoluteX w)) s)

/-- ROR zero page, 0x66 (R204). -/
def execRorZp (z : Byte) (s : State) : StepOutcome := answer (rotateRight (.mem (.zeroPage z)) s)

/-- ROR A, 0x6A (R204). -/
def execRorAcc (s : State) : StepOutcome := answer (rotateRight .acc s)

/-- ROR absolute, 0x6E (R204). -/
def execRorAbs (w : Word) (s : State) : StepOutcome := answer (rotateRight (.mem (.absolute w)) s)

/-- ROR zero page,X, 0x76 (R204). -/
def execRorZpX (z : Byte) (s : State) : StepOutcome := answer (rotateRight (.mem (.zeroPageX z)) s)

/-- ROR absolute,X, 0x7E (R204). -/
def execRorAbsX (w : Word) (s : State) : StepOutcome := answer (rotateRight (.mem (.absoluteX w)) s)

/-- INC A, 0x1A (R205). -/
def execIncAcc (s : State) : StepOutcome := answer (increment .acc s)

/-- INC zero page, 0xE6 (R205). -/
def execIncZp (z : Byte) (s : State) : StepOutcome := answer (increment (.mem (.zeroPage z)) s)

/-- INC absolute, 0xEE (R205). -/
def execIncAbs (w : Word) (s : State) : StepOutcome := answer (increment (.mem (.absolute w)) s)

/-- INC zero page,X, 0xF6 (R205). -/
def execIncZpX (z : Byte) (s : State) : StepOutcome := answer (increment (.mem (.zeroPageX z)) s)

/-- INC absolute,X, 0xFE (R205). -/
def execIncAbsX (w : Word) (s : State) : StepOutcome := answer (increment (.mem (.absoluteX w)) s)

/-- DEC A, 0x3A (R206). -/
def execDecAcc (s : State) : StepOutcome := answer (decrement .acc s)

/-- DEC zero page, 0xC6 (R206). -/
def execDecZp (z : Byte) (s : State) : StepOutcome := answer (decrement (.mem (.zeroPage z)) s)

/-- DEC absolute, 0xCE (R206). -/
def execDecAbs (w : Word) (s : State) : StepOutcome := answer (decrement (.mem (.absolute w)) s)

/-- DEC zero page,X, 0xD6 (R206). -/
def execDecZpX (z : Byte) (s : State) : StepOutcome := answer (decrement (.mem (.zeroPageX z)) s)

/-- DEC absolute,X, 0xDE (R206). -/
def execDecAbsX (w : Word) (s : State) : StepOutcome := answer (decrement (.mem (.absoluteX w)) s)

/-- INX, 0xE8 (R207). -/
def execInx (s : State) : StepOutcome := .next (setNZ (s.X + 1#8) { s with X := s.X + 1#8 })

/-- INY, 0xC8 (R208). -/
def execIny (s : State) : StepOutcome := .next (setNZ (s.Y + 1#8) { s with Y := s.Y + 1#8 })

/-- DEX, 0xCA (R209). -/
def execDex (s : State) : StepOutcome := .next (setNZ (s.X - 1#8) { s with X := s.X - 1#8 })

/-- DEY, 0x88 (R210). -/
def execDey (s : State) : StepOutcome := .next (setNZ (s.Y - 1#8) { s with Y := s.Y - 1#8 })

/-- TSB zero page, 0x04 (R211). -/
def execTsbZp (z : Byte) (s : State) : StepOutcome := answer (testAndSet (.zeroPage z) s)

/-- TSB absolute, 0x0C (R211). -/
def execTsbAbs (w : Word) (s : State) : StepOutcome := answer (testAndSet (.absolute w) s)

/-- TRB zero page, 0x14 (R212). -/
def execTrbZp (z : Byte) (s : State) : StepOutcome := answer (testAndReset (.zeroPage z) s)

/-- TRB absolute, 0x1C (R212). -/
def execTrbAbs (w : Word) (s : State) : StepOutcome := answer (testAndReset (.absolute w) s)

/-- RMB0 zero page, 0x07 (R213). -/
def execRmb0 (z : Byte) (s : State) : StepOutcome := answer (resetBit 0 z s)

/-- RMB1 zero page, 0x17 (R214). -/
def execRmb1 (z : Byte) (s : State) : StepOutcome := answer (resetBit 1 z s)

/-- RMB2 zero page, 0x27 (R215). -/
def execRmb2 (z : Byte) (s : State) : StepOutcome := answer (resetBit 2 z s)

/-- RMB3 zero page, 0x37 (R216). -/
def execRmb3 (z : Byte) (s : State) : StepOutcome := answer (resetBit 3 z s)

/-- RMB4 zero page, 0x47 (R217). -/
def execRmb4 (z : Byte) (s : State) : StepOutcome := answer (resetBit 4 z s)

/-- RMB5 zero page, 0x57 (R218). -/
def execRmb5 (z : Byte) (s : State) : StepOutcome := answer (resetBit 5 z s)

/-- RMB6 zero page, 0x67 (R219). -/
def execRmb6 (z : Byte) (s : State) : StepOutcome := answer (resetBit 6 z s)

/-- RMB7 zero page, 0x77 (R220). -/
def execRmb7 (z : Byte) (s : State) : StepOutcome := answer (resetBit 7 z s)

/-- SMB0 zero page, 0x87 (R221). -/
def execSmb0 (z : Byte) (s : State) : StepOutcome := answer (setBit 0 z s)

/-- SMB1 zero page, 0x97 (R222). -/
def execSmb1 (z : Byte) (s : State) : StepOutcome := answer (setBit 1 z s)

/-- SMB2 zero page, 0xA7 (R223). -/
def execSmb2 (z : Byte) (s : State) : StepOutcome := answer (setBit 2 z s)

/-- SMB3 zero page, 0xB7 (R224). -/
def execSmb3 (z : Byte) (s : State) : StepOutcome := answer (setBit 3 z s)

/-- SMB4 zero page, 0xC7 (R225). -/
def execSmb4 (z : Byte) (s : State) : StepOutcome := answer (setBit 4 z s)

/-- SMB5 zero page, 0xD7 (R226). -/
def execSmb5 (z : Byte) (s : State) : StepOutcome := answer (setBit 5 z s)

/-- SMB6 zero page, 0xE7 (R227). -/
def execSmb6 (z : Byte) (s : State) : StepOutcome := answer (setBit 6 z s)

/-- SMB7 zero page, 0xF7 (R228). -/
def execSmb7 (z : Byte) (s : State) : StepOutcome := answer (setBit 7 z s)

end Sys2Proof.Machine
end

