-- ==== Sys2Proof/Machine/StackFlags.lean ====
section
/-! DEFINITION. Stack and flag instructions (44_stack_flags.md R250 to R264). -/

namespace Sys2Proof.Machine

/-- `A <- Pull(); SetNZ(A)` (R254). -/
def pullA (s : State) : Except Fault State := do
  let (b, t) ← pull s
  return setNZ b { t with A := b }

/-- `X <- Pull(); SetNZ(X)` (R256). -/
def pullX (s : State) : Except Fault State := do
  let (b, t) ← pull s
  return setNZ b { t with X := b }

/-- `Y <- Pull(); SetNZ(Y)` (R257). -/
def pullY (s : State) : Except Fault State := do
  let (b, t) ← pull s
  return setNZ b { t with Y := b }

/-- All six flags from the pulled byte; bits 5 and 4 are ignored (R255). -/
def pullFlags (s : State) : Except Fault State := do
  let (p, t) ← pull s
  return loadFlags p t

/-- PHA, 0x48 (R250). -/
def execPha (s : State) : StepOutcome := answer (push s.A s)

/-- PHP, 0x08 (R251). -/
def execPhp (s : State) : StepOutcome := answer (push (pImage true s) s)

/-- PHX, 0xDA (R252). -/
def execPhx (s : State) : StepOutcome := answer (push s.X s)

/-- PHY, 0x5A (R253). -/
def execPhy (s : State) : StepOutcome := answer (push s.Y s)

/-- PLA, 0x68 (R254). -/
def execPla (s : State) : StepOutcome := answer (pullA s)

/-- PLP, 0x28 (R255). -/
def execPlp (s : State) : StepOutcome := answer (pullFlags s)

/-- PLX, 0xFA (R256). -/
def execPlx (s : State) : StepOutcome := answer (pullX s)

/-- PLY, 0x7A (R257). -/
def execPly (s : State) : StepOutcome := answer (pullY s)

/-- CLC, 0x18 (R258). -/
def execClc (s : State) : StepOutcome := .next { s with C := false }

/-- CLD, 0xD8 (R259). -/
def execCld (s : State) : StepOutcome := .next { s with D := false }

/-- CLI, 0x58 (R260). -/
def execCli (s : State) : StepOutcome := .next { s with I := false }

/-- CLV, 0xB8 (R261). -/
def execClv (s : State) : StepOutcome := .next { s with V := false }

/-- SEC, 0x38 (R262). -/
def execSec (s : State) : StepOutcome := .next { s with C := true }

/-- SED, 0xF8 (R263). -/
def execSed (s : State) : StepOutcome := .next { s with D := true }

/-- SEI, 0x78 (R264). -/
def execSei (s : State) : StepOutcome := .next { s with I := true }

end Sys2Proof.Machine
end

