-- ==== Sys2Proof/Machine/System.lean ====
section
/-! DEFINITION. No-operations, reserved opcodes, WAI and STP (46_system.md R320 to R327). A no-operation's whole
effect is the step's `PC <- next`; a reserved opcode's operand bytes are fetched by the step and ignored. -/

namespace Sys2Proof.Machine

/-- NOP, 0xEA (R320). -/
def execNop (s : State) : StepOutcome := .next s

/-- NOP, 0x03 (R321). -/
def execNopImp03 (s : State) : StepOutcome := .next s

/-- NOP, 0x0B (R321). -/
def execNopImp0B (s : State) : StepOutcome := .next s

/-- NOP, 0x13 (R321). -/
def execNopImp13 (s : State) : StepOutcome := .next s

/-- NOP, 0x1B (R321). -/
def execNopImp1B (s : State) : StepOutcome := .next s

/-- NOP, 0x23 (R321). -/
def execNopImp23 (s : State) : StepOutcome := .next s

/-- NOP, 0x2B (R321). -/
def execNopImp2B (s : State) : StepOutcome := .next s

/-- NOP, 0x33 (R321). -/
def execNopImp33 (s : State) : StepOutcome := .next s

/-- NOP, 0x3B (R321). -/
def execNopImp3B (s : State) : StepOutcome := .next s

/-- NOP, 0x43 (R321). -/
def execNopImp43 (s : State) : StepOutcome := .next s

/-- NOP, 0x4B (R321). -/
def execNopImp4B (s : State) : StepOutcome := .next s

/-- NOP, 0x53 (R321). -/
def execNopImp53 (s : State) : StepOutcome := .next s

/-- NOP, 0x5B (R321). -/
def execNopImp5B (s : State) : StepOutcome := .next s

/-- NOP, 0x63 (R321). -/
def execNopImp63 (s : State) : StepOutcome := .next s

/-- NOP, 0x6B (R321). -/
def execNopImp6B (s : State) : StepOutcome := .next s

/-- NOP, 0x73 (R321). -/
def execNopImp73 (s : State) : StepOutcome := .next s

/-- NOP, 0x7B (R321). -/
def execNopImp7B (s : State) : StepOutcome := .next s

/-- NOP, 0x83 (R321). -/
def execNopImp83 (s : State) : StepOutcome := .next s

/-- NOP, 0x8B (R321). -/
def execNopImp8B (s : State) : StepOutcome := .next s

/-- NOP, 0x93 (R321). -/
def execNopImp93 (s : State) : StepOutcome := .next s

/-- NOP, 0x9B (R321). -/
def execNopImp9B (s : State) : StepOutcome := .next s

/-- NOP, 0xA3 (R321). -/
def execNopImpA3 (s : State) : StepOutcome := .next s

/-- NOP, 0xAB (R321). -/
def execNopImpAB (s : State) : StepOutcome := .next s

/-- NOP, 0xB3 (R321). -/
def execNopImpB3 (s : State) : StepOutcome := .next s

/-- NOP, 0xBB (R321). -/
def execNopImpBB (s : State) : StepOutcome := .next s

/-- NOP, 0xC3 (R321). -/
def execNopImpC3 (s : State) : StepOutcome := .next s

/-- NOP, 0xD3 (R321). -/
def execNopImpD3 (s : State) : StepOutcome := .next s

/-- NOP, 0xE3 (R321). -/
def execNopImpE3 (s : State) : StepOutcome := .next s

/-- NOP, 0xEB (R321). -/
def execNopImpEB (s : State) : StepOutcome := .next s

/-- NOP, 0xF3 (R321). -/
def execNopImpF3 (s : State) : StepOutcome := .next s

/-- NOP, 0xFB (R321). -/
def execNopImpFB (s : State) : StepOutcome := .next s

/-- NOP immediate, 0x02 (R322). -/
def execNopImm02 (_v : Byte) (s : State) : StepOutcome := .next s

/-- NOP immediate, 0x22 (R322). -/
def execNopImm22 (_v : Byte) (s : State) : StepOutcome := .next s

/-- NOP immediate, 0x42 (R322). -/
def execNopImm42 (_v : Byte) (s : State) : StepOutcome := .next s

/-- NOP immediate, 0x62 (R322). -/
def execNopImm62 (_v : Byte) (s : State) : StepOutcome := .next s

/-- NOP immediate, 0x82 (R322). -/
def execNopImm82 (_v : Byte) (s : State) : StepOutcome := .next s

/-- NOP immediate, 0xC2 (R322). -/
def execNopImmC2 (_v : Byte) (s : State) : StepOutcome := .next s

/-- NOP immediate, 0xE2 (R322). -/
def execNopImmE2 (_v : Byte) (s : State) : StepOutcome := .next s

/-- NOP zero page, 0x44 (R323). -/
def execNopZp44 (_z : Byte) (s : State) : StepOutcome := .next s

/-- NOP zero page,X, 0x54 (R324). -/
def execNopZpX54 (_z : Byte) (s : State) : StepOutcome := .next s

/-- NOP zero page,X, 0xD4 (R324). -/
def execNopZpXD4 (_z : Byte) (s : State) : StepOutcome := .next s

/-- NOP zero page,X, 0xF4 (R324). -/
def execNopZpXF4 (_z : Byte) (s : State) : StepOutcome := .next s

/-- NOP absolute, 0x5C (R325). -/
def execNopAbs5C (_w : Word) (s : State) : StepOutcome := .next s

/-- NOP absolute, 0xDC (R325). -/
def execNopAbsDC (_w : Word) (s : State) : StepOutcome := .next s

/-- NOP absolute, 0xFC (R325). -/
def execNopAbsFC (_w : Word) (s : State) : StepOutcome := .next s

/-- WAI, 0xCB (R326). -/
def execWai (s : State) : StepOutcome := .next { s with mode := .waiting }

/-- STP, 0xDB (R327). -/
def execStp (s : State) : StepOutcome := .next { s with mode := .stopped }

end Sys2Proof.Machine
end

