-- ==== Sys2Proof/Syntax.lean ====
section
/-! DEFINITION. The instructions: one constructor a row of spec/opcode_table.json (30_encoding.md
R106): first the rows with operand bytes, then the rows of one byte, each in opcode order. An operand has
exactly the width its encoding has (R105), so no constructor can hold a value no encoding holds.
Operand names: `v` imm8 or BRK's signature, `z` zero-page address, `w` abs16, `r` rel8
(a signed offset, kept as its byte). The constructors named nop<mode><opcode> are the 44 reserved opcodes
(R108). -/

namespace Sys2Proof

inductive Instr where
  | brk (v : Byte)
  | oraIndX (z : Byte)
  | nopImm02 (v : Byte)
  | tsbZp (z : Byte)
  | oraZp (z : Byte)
  | aslZp (z : Byte)
  | rmb0 (z : Byte)
  | oraImm (v : Byte)
  | tsbAbs (w : Word)
  | oraAbs (w : Word)
  | aslAbs (w : Word)
  | bbr0 (z : Byte) (r : Byte)
  | bpl (r : Byte)
  | oraIndY (z : Byte)
  | oraZpInd (z : Byte)
  | trbZp (z : Byte)
  | oraZpX (z : Byte)
  | aslZpX (z : Byte)
  | rmb1 (z : Byte)
  | oraAbsY (w : Word)
  | trbAbs (w : Word)
  | oraAbsX (w : Word)
  | aslAbsX (w : Word)
  | bbr1 (z : Byte) (r : Byte)
  | jsr (w : Word)
  | andIndX (z : Byte)
  | nopImm22 (v : Byte)
  | bitZp (z : Byte)
  | andZp (z : Byte)
  | rolZp (z : Byte)
  | rmb2 (z : Byte)
  | andImm (v : Byte)
  | bitAbs (w : Word)
  | andAbs (w : Word)
  | rolAbs (w : Word)
  | bbr2 (z : Byte) (r : Byte)
  | bmi (r : Byte)
  | andIndY (z : Byte)
  | andZpInd (z : Byte)
  | bitZpX (z : Byte)
  | andZpX (z : Byte)
  | rolZpX (z : Byte)
  | rmb3 (z : Byte)
  | andAbsY (w : Word)
  | bitAbsX (w : Word)
  | andAbsX (w : Word)
  | rolAbsX (w : Word)
  | bbr3 (z : Byte) (r : Byte)
  | eorIndX (z : Byte)
  | nopImm42 (v : Byte)
  | nopZp44 (z : Byte)
  | eorZp (z : Byte)
  | lsrZp (z : Byte)
  | rmb4 (z : Byte)
  | eorImm (v : Byte)
  | jmpAbs (w : Word)
  | eorAbs (w : Word)
  | lsrAbs (w : Word)
  | bbr4 (z : Byte) (r : Byte)
  | bvc (r : Byte)
  | eorIndY (z : Byte)
  | eorZpInd (z : Byte)
  | nopZpX54 (z : Byte)
  | eorZpX (z : Byte)
  | lsrZpX (z : Byte)
  | rmb5 (z : Byte)
  | eorAbsY (w : Word)
  | nopAbs5C (w : Word)
  | eorAbsX (w : Word)
  | lsrAbsX (w : Word)
  | bbr5 (z : Byte) (r : Byte)
  | adcIndX (z : Byte)
  | nopImm62 (v : Byte)
  | stzZp (z : Byte)
  | adcZp (z : Byte)
  | rorZp (z : Byte)
  | rmb6 (z : Byte)
  | adcImm (v : Byte)
  | jmpInd (w : Word)
  | adcAbs (w : Word)
  | rorAbs (w : Word)
  | bbr6 (z : Byte) (r : Byte)
  | bvs (r : Byte)
  | adcIndY (z : Byte)
  | adcZpInd (z : Byte)
  | stzZpX (z : Byte)
  | adcZpX (z : Byte)
  | rorZpX (z : Byte)
  | rmb7 (z : Byte)
  | adcAbsY (w : Word)
  | jmpAbsIndX (w : Word)
  | adcAbsX (w : Word)
  | rorAbsX (w : Word)
  | bbr7 (z : Byte) (r : Byte)
  | bra (r : Byte)
  | staIndX (z : Byte)
  | nopImm82 (v : Byte)
  | styZp (z : Byte)
  | staZp (z : Byte)
  | stxZp (z : Byte)
  | smb0 (z : Byte)
  | bitImm (v : Byte)
  | styAbs (w : Word)
  | staAbs (w : Word)
  | stxAbs (w : Word)
  | bbs0 (z : Byte) (r : Byte)
  | bcc (r : Byte)
  | staIndY (z : Byte)
  | staZpInd (z : Byte)
  | styZpX (z : Byte)
  | staZpX (z : Byte)
  | stxZpY (z : Byte)
  | smb1 (z : Byte)
  | staAbsY (w : Word)
  | stzAbs (w : Word)
  | staAbsX (w : Word)
  | stzAbsX (w : Word)
  | bbs1 (z : Byte) (r : Byte)
  | ldyImm (v : Byte)
  | ldaIndX (z : Byte)
  | ldxImm (v : Byte)
  | ldyZp (z : Byte)
  | ldaZp (z : Byte)
  | ldxZp (z : Byte)
  | smb2 (z : Byte)
  | ldaImm (v : Byte)
  | ldyAbs (w : Word)
  | ldaAbs (w : Word)
  | ldxAbs (w : Word)
  | bbs2 (z : Byte) (r : Byte)
  | bcs (r : Byte)
  | ldaIndY (z : Byte)
  | ldaZpInd (z : Byte)
  | ldyZpX (z : Byte)
  | ldaZpX (z : Byte)
  | ldxZpY (z : Byte)
  | smb3 (z : Byte)
  | ldaAbsY (w : Word)
  | ldyAbsX (w : Word)
  | ldaAbsX (w : Word)
  | ldxAbsY (w : Word)
  | bbs3 (z : Byte) (r : Byte)
  | cpyImm (v : Byte)
  | cmpIndX (z : Byte)
  | nopImmC2 (v : Byte)
  | cpyZp (z : Byte)
  | cmpZp (z : Byte)
  | decZp (z : Byte)
  | smb4 (z : Byte)
  | cmpImm (v : Byte)
  | cpyAbs (w : Word)
  | cmpAbs (w : Word)
  | decAbs (w : Word)
  | bbs4 (z : Byte) (r : Byte)
  | bne (r : Byte)
  | cmpIndY (z : Byte)
  | cmpZpInd (z : Byte)
  | nopZpXD4 (z : Byte)
  | cmpZpX (z : Byte)
  | decZpX (z : Byte)
  | smb5 (z : Byte)
  | cmpAbsY (w : Word)
  | nopAbsDC (w : Word)
  | cmpAbsX (w : Word)
  | decAbsX (w : Word)
  | bbs5 (z : Byte) (r : Byte)
  | cpxImm (v : Byte)
  | sbcIndX (z : Byte)
  | nopImmE2 (v : Byte)
  | cpxZp (z : Byte)
  | sbcZp (z : Byte)
  | incZp (z : Byte)
  | smb6 (z : Byte)
  | sbcImm (v : Byte)
  | cpxAbs (w : Word)
  | sbcAbs (w : Word)
  | incAbs (w : Word)
  | bbs6 (z : Byte) (r : Byte)
  | beq (r : Byte)
  | sbcIndY (z : Byte)
  | sbcZpInd (z : Byte)
  | nopZpXF4 (z : Byte)
  | sbcZpX (z : Byte)
  | incZpX (z : Byte)
  | smb7 (z : Byte)
  | sbcAbsY (w : Word)
  | nopAbsFC (w : Word)
  | sbcAbsX (w : Word)
  | incAbsX (w : Word)
  | bbs7 (z : Byte) (r : Byte)
  | nopImp03
  | php
  | aslAcc
  | nopImp0B
  | nopImp13
  | clc
  | incAcc
  | nopImp1B
  | nopImp23
  | plp
  | rolAcc
  | nopImp2B
  | nopImp33
  | sec
  | decAcc
  | nopImp3B
  | rti
  | nopImp43
  | pha
  | lsrAcc
  | nopImp4B
  | nopImp53
  | cli
  | phy
  | nopImp5B
  | rts
  | nopImp63
  | pla
  | rorAcc
  | nopImp6B
  | nopImp73
  | sei
  | ply
  | nopImp7B
  | nopImp83
  | dey
  | txa
  | nopImp8B
  | nopImp93
  | tya
  | txs
  | nopImp9B
  | nopImpA3
  | tay
  | tax
  | nopImpAB
  | nopImpB3
  | clv
  | tsx
  | nopImpBB
  | nopImpC3
  | iny
  | dex
  | wai
  | nopImpD3
  | cld
  | phx
  | stp
  | nopImpE3
  | inx
  | nop
  | nopImpEB
  | nopImpF3
  | sed
  | plx
  | nopImpFB
  deriving DecidableEq, Repr

/-- The sixteen addressing modes (40_addressing.md R148). -/
inductive AddrMode where
  | implied
  | accumulator
  | immediate
  | zeroPage
  | zeroPageX
  | zeroPageY
  | zeroPageIndirect
  | indirectX
  | indirectY
  | relative
  | absolute
  | absoluteX
  | absoluteY
  | indirect
  | absoluteIndexedIndirect
  | zeroPageRelative
  deriving DecidableEq, Repr

end Sys2Proof
end

