-- ==== Sys2Proof/Machine/Dispatch.lean ====
section
/-! DEFINITION. What each instruction does: one arm a constructor, each one call of its meaning. `exec` is given
the state in which PC is already `next` (00_scope.md R18, 30_encoding.md R103). -/

namespace Sys2Proof.Machine

def exec (i : Instr) (s : State) : Host.Outcome State Fault Refusal :=
  match i with
  | .brk v => Sys2Proof.Machine.execBrk v s
  | .oraIndX z => Sys2Proof.Machine.execOraIndX z s
  | .nopImm02 v => Sys2Proof.Machine.execNopImm02 v s
  | .nopImp03 => Sys2Proof.Machine.execNopImp03 s
  | .tsbZp z => Sys2Proof.Machine.execTsbZp z s
  | .oraZp z => Sys2Proof.Machine.execOraZp z s
  | .aslZp z => Sys2Proof.Machine.execAslZp z s
  | .rmb0 z => Sys2Proof.Machine.execRmb0 z s
  | .php => Sys2Proof.Machine.execPhp s
  | .oraImm v => Sys2Proof.Machine.execOraImm v s
  | .aslAcc => Sys2Proof.Machine.execAslAcc s
  | .nopImp0B => Sys2Proof.Machine.execNopImp0B s
  | .tsbAbs w => Sys2Proof.Machine.execTsbAbs w s
  | .oraAbs w => Sys2Proof.Machine.execOraAbs w s
  | .aslAbs w => Sys2Proof.Machine.execAslAbs w s
  | .bbr0 z r => Sys2Proof.Machine.execBbr0 z r s
  | .bpl r => Sys2Proof.Machine.execBpl r s
  | .oraIndY z => Sys2Proof.Machine.execOraIndY z s
  | .oraZpInd z => Sys2Proof.Machine.execOraZpInd z s
  | .nopImp13 => Sys2Proof.Machine.execNopImp13 s
  | .trbZp z => Sys2Proof.Machine.execTrbZp z s
  | .oraZpX z => Sys2Proof.Machine.execOraZpX z s
  | .aslZpX z => Sys2Proof.Machine.execAslZpX z s
  | .rmb1 z => Sys2Proof.Machine.execRmb1 z s
  | .clc => Sys2Proof.Machine.execClc s
  | .oraAbsY w => Sys2Proof.Machine.execOraAbsY w s
  | .incAcc => Sys2Proof.Machine.execIncAcc s
  | .nopImp1B => Sys2Proof.Machine.execNopImp1B s
  | .trbAbs w => Sys2Proof.Machine.execTrbAbs w s
  | .oraAbsX w => Sys2Proof.Machine.execOraAbsX w s
  | .aslAbsX w => Sys2Proof.Machine.execAslAbsX w s
  | .bbr1 z r => Sys2Proof.Machine.execBbr1 z r s
  | .jsr w => Sys2Proof.Machine.execJsr w s
  | .andIndX z => Sys2Proof.Machine.execAndIndX z s
  | .nopImm22 v => Sys2Proof.Machine.execNopImm22 v s
  | .nopImp23 => Sys2Proof.Machine.execNopImp23 s
  | .bitZp z => Sys2Proof.Machine.execBitZp z s
  | .andZp z => Sys2Proof.Machine.execAndZp z s
  | .rolZp z => Sys2Proof.Machine.execRolZp z s
  | .rmb2 z => Sys2Proof.Machine.execRmb2 z s
  | .plp => Sys2Proof.Machine.execPlp s
  | .andImm v => Sys2Proof.Machine.execAndImm v s
  | .rolAcc => Sys2Proof.Machine.execRolAcc s
  | .nopImp2B => Sys2Proof.Machine.execNopImp2B s
  | .bitAbs w => Sys2Proof.Machine.execBitAbs w s
  | .andAbs w => Sys2Proof.Machine.execAndAbs w s
  | .rolAbs w => Sys2Proof.Machine.execRolAbs w s
  | .bbr2 z r => Sys2Proof.Machine.execBbr2 z r s
  | .bmi r => Sys2Proof.Machine.execBmi r s
  | .andIndY z => Sys2Proof.Machine.execAndIndY z s
  | .andZpInd z => Sys2Proof.Machine.execAndZpInd z s
  | .nopImp33 => Sys2Proof.Machine.execNopImp33 s
  | .bitZpX z => Sys2Proof.Machine.execBitZpX z s
  | .andZpX z => Sys2Proof.Machine.execAndZpX z s
  | .rolZpX z => Sys2Proof.Machine.execRolZpX z s
  | .rmb3 z => Sys2Proof.Machine.execRmb3 z s
  | .sec => Sys2Proof.Machine.execSec s
  | .andAbsY w => Sys2Proof.Machine.execAndAbsY w s
  | .decAcc => Sys2Proof.Machine.execDecAcc s
  | .nopImp3B => Sys2Proof.Machine.execNopImp3B s
  | .bitAbsX w => Sys2Proof.Machine.execBitAbsX w s
  | .andAbsX w => Sys2Proof.Machine.execAndAbsX w s
  | .rolAbsX w => Sys2Proof.Machine.execRolAbsX w s
  | .bbr3 z r => Sys2Proof.Machine.execBbr3 z r s
  | .rti => Sys2Proof.Machine.execRti s
  | .eorIndX z => Sys2Proof.Machine.execEorIndX z s
  | .nopImm42 v => Sys2Proof.Machine.execNopImm42 v s
  | .nopImp43 => Sys2Proof.Machine.execNopImp43 s
  | .nopZp44 z => Sys2Proof.Machine.execNopZp44 z s
  | .eorZp z => Sys2Proof.Machine.execEorZp z s
  | .lsrZp z => Sys2Proof.Machine.execLsrZp z s
  | .rmb4 z => Sys2Proof.Machine.execRmb4 z s
  | .pha => Sys2Proof.Machine.execPha s
  | .eorImm v => Sys2Proof.Machine.execEorImm v s
  | .lsrAcc => Sys2Proof.Machine.execLsrAcc s
  | .nopImp4B => Sys2Proof.Machine.execNopImp4B s
  | .jmpAbs w => Sys2Proof.Machine.execJmpAbs w s
  | .eorAbs w => Sys2Proof.Machine.execEorAbs w s
  | .lsrAbs w => Sys2Proof.Machine.execLsrAbs w s
  | .bbr4 z r => Sys2Proof.Machine.execBbr4 z r s
  | .bvc r => Sys2Proof.Machine.execBvc r s
  | .eorIndY z => Sys2Proof.Machine.execEorIndY z s
  | .eorZpInd z => Sys2Proof.Machine.execEorZpInd z s
  | .nopImp53 => Sys2Proof.Machine.execNopImp53 s
  | .nopZpX54 z => Sys2Proof.Machine.execNopZpX54 z s
  | .eorZpX z => Sys2Proof.Machine.execEorZpX z s
  | .lsrZpX z => Sys2Proof.Machine.execLsrZpX z s
  | .rmb5 z => Sys2Proof.Machine.execRmb5 z s
  | .cli => Sys2Proof.Machine.execCli s
  | .eorAbsY w => Sys2Proof.Machine.execEorAbsY w s
  | .phy => Sys2Proof.Machine.execPhy s
  | .nopImp5B => Sys2Proof.Machine.execNopImp5B s
  | .nopAbs5C w => Sys2Proof.Machine.execNopAbs5C w s
  | .eorAbsX w => Sys2Proof.Machine.execEorAbsX w s
  | .lsrAbsX w => Sys2Proof.Machine.execLsrAbsX w s
  | .bbr5 z r => Sys2Proof.Machine.execBbr5 z r s
  | .rts => Sys2Proof.Machine.execRts s
  | .adcIndX z => Sys2Proof.Machine.execAdcIndX z s
  | .nopImm62 v => Sys2Proof.Machine.execNopImm62 v s
  | .nopImp63 => Sys2Proof.Machine.execNopImp63 s
  | .stzZp z => Sys2Proof.Machine.execStzZp z s
  | .adcZp z => Sys2Proof.Machine.execAdcZp z s
  | .rorZp z => Sys2Proof.Machine.execRorZp z s
  | .rmb6 z => Sys2Proof.Machine.execRmb6 z s
  | .pla => Sys2Proof.Machine.execPla s
  | .adcImm v => Sys2Proof.Machine.execAdcImm v s
  | .rorAcc => Sys2Proof.Machine.execRorAcc s
  | .nopImp6B => Sys2Proof.Machine.execNopImp6B s
  | .jmpInd w => Sys2Proof.Machine.execJmpInd w s
  | .adcAbs w => Sys2Proof.Machine.execAdcAbs w s
  | .rorAbs w => Sys2Proof.Machine.execRorAbs w s
  | .bbr6 z r => Sys2Proof.Machine.execBbr6 z r s
  | .bvs r => Sys2Proof.Machine.execBvs r s
  | .adcIndY z => Sys2Proof.Machine.execAdcIndY z s
  | .adcZpInd z => Sys2Proof.Machine.execAdcZpInd z s
  | .nopImp73 => Sys2Proof.Machine.execNopImp73 s
  | .stzZpX z => Sys2Proof.Machine.execStzZpX z s
  | .adcZpX z => Sys2Proof.Machine.execAdcZpX z s
  | .rorZpX z => Sys2Proof.Machine.execRorZpX z s
  | .rmb7 z => Sys2Proof.Machine.execRmb7 z s
  | .sei => Sys2Proof.Machine.execSei s
  | .adcAbsY w => Sys2Proof.Machine.execAdcAbsY w s
  | .ply => Sys2Proof.Machine.execPly s
  | .nopImp7B => Sys2Proof.Machine.execNopImp7B s
  | .jmpAbsIndX w => Sys2Proof.Machine.execJmpAbsIndX w s
  | .adcAbsX w => Sys2Proof.Machine.execAdcAbsX w s
  | .rorAbsX w => Sys2Proof.Machine.execRorAbsX w s
  | .bbr7 z r => Sys2Proof.Machine.execBbr7 z r s
  | .bra r => Sys2Proof.Machine.execBra r s
  | .staIndX z => Sys2Proof.Machine.execStaIndX z s
  | .nopImm82 v => Sys2Proof.Machine.execNopImm82 v s
  | .nopImp83 => Sys2Proof.Machine.execNopImp83 s
  | .styZp z => Sys2Proof.Machine.execStyZp z s
  | .staZp z => Sys2Proof.Machine.execStaZp z s
  | .stxZp z => Sys2Proof.Machine.execStxZp z s
  | .smb0 z => Sys2Proof.Machine.execSmb0 z s
  | .dey => Sys2Proof.Machine.execDey s
  | .bitImm v => Sys2Proof.Machine.execBitImm v s
  | .txa => Sys2Proof.Machine.execTxa s
  | .nopImp8B => Sys2Proof.Machine.execNopImp8B s
  | .styAbs w => Sys2Proof.Machine.execStyAbs w s
  | .staAbs w => Sys2Proof.Machine.execStaAbs w s
  | .stxAbs w => Sys2Proof.Machine.execStxAbs w s
  | .bbs0 z r => Sys2Proof.Machine.execBbs0 z r s
  | .bcc r => Sys2Proof.Machine.execBcc r s
  | .staIndY z => Sys2Proof.Machine.execStaIndY z s
  | .staZpInd z => Sys2Proof.Machine.execStaZpInd z s
  | .nopImp93 => Sys2Proof.Machine.execNopImp93 s
  | .styZpX z => Sys2Proof.Machine.execStyZpX z s
  | .staZpX z => Sys2Proof.Machine.execStaZpX z s
  | .stxZpY z => Sys2Proof.Machine.execStxZpY z s
  | .smb1 z => Sys2Proof.Machine.execSmb1 z s
  | .tya => Sys2Proof.Machine.execTya s
  | .staAbsY w => Sys2Proof.Machine.execStaAbsY w s
  | .txs => Sys2Proof.Machine.execTxs s
  | .nopImp9B => Sys2Proof.Machine.execNopImp9B s
  | .stzAbs w => Sys2Proof.Machine.execStzAbs w s
  | .staAbsX w => Sys2Proof.Machine.execStaAbsX w s
  | .stzAbsX w => Sys2Proof.Machine.execStzAbsX w s
  | .bbs1 z r => Sys2Proof.Machine.execBbs1 z r s
  | .ldyImm v => Sys2Proof.Machine.execLdyImm v s
  | .ldaIndX z => Sys2Proof.Machine.execLdaIndX z s
  | .ldxImm v => Sys2Proof.Machine.execLdxImm v s
  | .nopImpA3 => Sys2Proof.Machine.execNopImpA3 s
  | .ldyZp z => Sys2Proof.Machine.execLdyZp z s
  | .ldaZp z => Sys2Proof.Machine.execLdaZp z s
  | .ldxZp z => Sys2Proof.Machine.execLdxZp z s
  | .smb2 z => Sys2Proof.Machine.execSmb2 z s
  | .tay => Sys2Proof.Machine.execTay s
  | .ldaImm v => Sys2Proof.Machine.execLdaImm v s
  | .tax => Sys2Proof.Machine.execTax s
  | .nopImpAB => Sys2Proof.Machine.execNopImpAB s
  | .ldyAbs w => Sys2Proof.Machine.execLdyAbs w s
  | .ldaAbs w => Sys2Proof.Machine.execLdaAbs w s
  | .ldxAbs w => Sys2Proof.Machine.execLdxAbs w s
  | .bbs2 z r => Sys2Proof.Machine.execBbs2 z r s
  | .bcs r => Sys2Proof.Machine.execBcs r s
  | .ldaIndY z => Sys2Proof.Machine.execLdaIndY z s
  | .ldaZpInd z => Sys2Proof.Machine.execLdaZpInd z s
  | .nopImpB3 => Sys2Proof.Machine.execNopImpB3 s
  | .ldyZpX z => Sys2Proof.Machine.execLdyZpX z s
  | .ldaZpX z => Sys2Proof.Machine.execLdaZpX z s
  | .ldxZpY z => Sys2Proof.Machine.execLdxZpY z s
  | .smb3 z => Sys2Proof.Machine.execSmb3 z s
  | .clv => Sys2Proof.Machine.execClv s
  | .ldaAbsY w => Sys2Proof.Machine.execLdaAbsY w s
  | .tsx => Sys2Proof.Machine.execTsx s
  | .nopImpBB => Sys2Proof.Machine.execNopImpBB s
  | .ldyAbsX w => Sys2Proof.Machine.execLdyAbsX w s
  | .ldaAbsX w => Sys2Proof.Machine.execLdaAbsX w s
  | .ldxAbsY w => Sys2Proof.Machine.execLdxAbsY w s
  | .bbs3 z r => Sys2Proof.Machine.execBbs3 z r s
  | .cpyImm v => Sys2Proof.Machine.execCpyImm v s
  | .cmpIndX z => Sys2Proof.Machine.execCmpIndX z s
  | .nopImmC2 v => Sys2Proof.Machine.execNopImmC2 v s
  | .nopImpC3 => Sys2Proof.Machine.execNopImpC3 s
  | .cpyZp z => Sys2Proof.Machine.execCpyZp z s
  | .cmpZp z => Sys2Proof.Machine.execCmpZp z s
  | .decZp z => Sys2Proof.Machine.execDecZp z s
  | .smb4 z => Sys2Proof.Machine.execSmb4 z s
  | .iny => Sys2Proof.Machine.execIny s
  | .cmpImm v => Sys2Proof.Machine.execCmpImm v s
  | .dex => Sys2Proof.Machine.execDex s
  | .wai => Sys2Proof.Machine.execWai s
  | .cpyAbs w => Sys2Proof.Machine.execCpyAbs w s
  | .cmpAbs w => Sys2Proof.Machine.execCmpAbs w s
  | .decAbs w => Sys2Proof.Machine.execDecAbs w s
  | .bbs4 z r => Sys2Proof.Machine.execBbs4 z r s
  | .bne r => Sys2Proof.Machine.execBne r s
  | .cmpIndY z => Sys2Proof.Machine.execCmpIndY z s
  | .cmpZpInd z => Sys2Proof.Machine.execCmpZpInd z s
  | .nopImpD3 => Sys2Proof.Machine.execNopImpD3 s
  | .nopZpXD4 z => Sys2Proof.Machine.execNopZpXD4 z s
  | .cmpZpX z => Sys2Proof.Machine.execCmpZpX z s
  | .decZpX z => Sys2Proof.Machine.execDecZpX z s
  | .smb5 z => Sys2Proof.Machine.execSmb5 z s
  | .cld => Sys2Proof.Machine.execCld s
  | .cmpAbsY w => Sys2Proof.Machine.execCmpAbsY w s
  | .phx => Sys2Proof.Machine.execPhx s
  | .stp => Sys2Proof.Machine.execStp s
  | .nopAbsDC w => Sys2Proof.Machine.execNopAbsDC w s
  | .cmpAbsX w => Sys2Proof.Machine.execCmpAbsX w s
  | .decAbsX w => Sys2Proof.Machine.execDecAbsX w s
  | .bbs5 z r => Sys2Proof.Machine.execBbs5 z r s
  | .cpxImm v => Sys2Proof.Machine.execCpxImm v s
  | .sbcIndX z => Sys2Proof.Machine.execSbcIndX z s
  | .nopImmE2 v => Sys2Proof.Machine.execNopImmE2 v s
  | .nopImpE3 => Sys2Proof.Machine.execNopImpE3 s
  | .cpxZp z => Sys2Proof.Machine.execCpxZp z s
  | .sbcZp z => Sys2Proof.Machine.execSbcZp z s
  | .incZp z => Sys2Proof.Machine.execIncZp z s
  | .smb6 z => Sys2Proof.Machine.execSmb6 z s
  | .inx => Sys2Proof.Machine.execInx s
  | .sbcImm v => Sys2Proof.Machine.execSbcImm v s
  | .nop => Sys2Proof.Machine.execNop s
  | .nopImpEB => Sys2Proof.Machine.execNopImpEB s
  | .cpxAbs w => Sys2Proof.Machine.execCpxAbs w s
  | .sbcAbs w => Sys2Proof.Machine.execSbcAbs w s
  | .incAbs w => Sys2Proof.Machine.execIncAbs w s
  | .bbs6 z r => Sys2Proof.Machine.execBbs6 z r s
  | .beq r => Sys2Proof.Machine.execBeq r s
  | .sbcIndY z => Sys2Proof.Machine.execSbcIndY z s
  | .sbcZpInd z => Sys2Proof.Machine.execSbcZpInd z s
  | .nopImpF3 => Sys2Proof.Machine.execNopImpF3 s
  | .nopZpXF4 z => Sys2Proof.Machine.execNopZpXF4 z s
  | .sbcZpX z => Sys2Proof.Machine.execSbcZpX z s
  | .incZpX z => Sys2Proof.Machine.execIncZpX z s
  | .smb7 z => Sys2Proof.Machine.execSmb7 z s
  | .sed => Sys2Proof.Machine.execSed s
  | .sbcAbsY w => Sys2Proof.Machine.execSbcAbsY w s
  | .plx => Sys2Proof.Machine.execPlx s
  | .nopImpFB => Sys2Proof.Machine.execNopImpFB s
  | .nopAbsFC w => Sys2Proof.Machine.execNopAbsFC w s
  | .sbcAbsX w => Sys2Proof.Machine.execSbcAbsX w s
  | .incAbsX w => Sys2Proof.Machine.execIncAbsX w s
  | .bbs7 z r => Sys2Proof.Machine.execBbs7 z r s

end Sys2Proof.Machine
end

