-- ==== Sys2Proof/Decode.lean ====
section
/-! DEFINITION. The decoder (30_encoding.md R100 to R110): a static table of 256 entries indexed by the opcode
byte, total, reading nothing but the bytes; and the encoder, written from the same table of the spec. The opcode set is
the spec's W65C02S baseline (log 15). -/

namespace Sys2Proof

/-- The three formats of R104: how many operand bytes an opcode takes and the instruction they make. -/
inductive Format where
  | f1 (i : Instr)
  | f2 (make : Byte → Instr)
  | f3 (make : Byte → Byte → Instr)

/-- Format F3 with an `abs16` operand: op1 is the low byte, op2 the high byte (R105). -/
def abs16 (make : Word → Instr) : Format := .f3 fun op1 op2 => make (Machine.concat16 op2 op1)

/-- Row 0x of the opcode map (R106, R108). -/
def opcodeRow0 : List Format :=
  [.f2 .brk, .f2 .oraIndX, .f2 .nopImm02, .f1 .nopImp03,
   .f2 .tsbZp, .f2 .oraZp, .f2 .aslZp, .f2 .rmb0,
   .f1 .php, .f2 .oraImm, .f1 .aslAcc, .f1 .nopImp0B,
   abs16 .tsbAbs, abs16 .oraAbs, abs16 .aslAbs, .f3 .bbr0]

/-- Row 1x of the opcode map (R106, R108). -/
def opcodeRow1 : List Format :=
  [.f2 .bpl, .f2 .oraIndY, .f2 .oraZpInd, .f1 .nopImp13,
   .f2 .trbZp, .f2 .oraZpX, .f2 .aslZpX, .f2 .rmb1,
   .f1 .clc, abs16 .oraAbsY, .f1 .incAcc, .f1 .nopImp1B,
   abs16 .trbAbs, abs16 .oraAbsX, abs16 .aslAbsX, .f3 .bbr1]

/-- Row 2x of the opcode map (R106, R108). -/
def opcodeRow2 : List Format :=
  [abs16 .jsr, .f2 .andIndX, .f2 .nopImm22, .f1 .nopImp23,
   .f2 .bitZp, .f2 .andZp, .f2 .rolZp, .f2 .rmb2,
   .f1 .plp, .f2 .andImm, .f1 .rolAcc, .f1 .nopImp2B,
   abs16 .bitAbs, abs16 .andAbs, abs16 .rolAbs, .f3 .bbr2]

/-- Row 3x of the opcode map (R106, R108). -/
def opcodeRow3 : List Format :=
  [.f2 .bmi, .f2 .andIndY, .f2 .andZpInd, .f1 .nopImp33,
   .f2 .bitZpX, .f2 .andZpX, .f2 .rolZpX, .f2 .rmb3,
   .f1 .sec, abs16 .andAbsY, .f1 .decAcc, .f1 .nopImp3B,
   abs16 .bitAbsX, abs16 .andAbsX, abs16 .rolAbsX, .f3 .bbr3]

/-- Row 4x of the opcode map (R106, R108). -/
def opcodeRow4 : List Format :=
  [.f1 .rti, .f2 .eorIndX, .f2 .nopImm42, .f1 .nopImp43,
   .f2 .nopZp44, .f2 .eorZp, .f2 .lsrZp, .f2 .rmb4,
   .f1 .pha, .f2 .eorImm, .f1 .lsrAcc, .f1 .nopImp4B,
   abs16 .jmpAbs, abs16 .eorAbs, abs16 .lsrAbs, .f3 .bbr4]

/-- Row 5x of the opcode map (R106, R108). -/
def opcodeRow5 : List Format :=
  [.f2 .bvc, .f2 .eorIndY, .f2 .eorZpInd, .f1 .nopImp53,
   .f2 .nopZpX54, .f2 .eorZpX, .f2 .lsrZpX, .f2 .rmb5,
   .f1 .cli, abs16 .eorAbsY, .f1 .phy, .f1 .nopImp5B,
   abs16 .nopAbs5C, abs16 .eorAbsX, abs16 .lsrAbsX, .f3 .bbr5]

/-- Row 6x of the opcode map (R106, R108). -/
def opcodeRow6 : List Format :=
  [.f1 .rts, .f2 .adcIndX, .f2 .nopImm62, .f1 .nopImp63,
   .f2 .stzZp, .f2 .adcZp, .f2 .rorZp, .f2 .rmb6,
   .f1 .pla, .f2 .adcImm, .f1 .rorAcc, .f1 .nopImp6B,
   abs16 .jmpInd, abs16 .adcAbs, abs16 .rorAbs, .f3 .bbr6]

/-- Row 7x of the opcode map (R106, R108). -/
def opcodeRow7 : List Format :=
  [.f2 .bvs, .f2 .adcIndY, .f2 .adcZpInd, .f1 .nopImp73,
   .f2 .stzZpX, .f2 .adcZpX, .f2 .rorZpX, .f2 .rmb7,
   .f1 .sei, abs16 .adcAbsY, .f1 .ply, .f1 .nopImp7B,
   abs16 .jmpAbsIndX, abs16 .adcAbsX, abs16 .rorAbsX, .f3 .bbr7]

/-- Row 8x of the opcode map (R106, R108). -/
def opcodeRow8 : List Format :=
  [.f2 .bra, .f2 .staIndX, .f2 .nopImm82, .f1 .nopImp83,
   .f2 .styZp, .f2 .staZp, .f2 .stxZp, .f2 .smb0,
   .f1 .dey, .f2 .bitImm, .f1 .txa, .f1 .nopImp8B,
   abs16 .styAbs, abs16 .staAbs, abs16 .stxAbs, .f3 .bbs0]

/-- Row 9x of the opcode map (R106, R108). -/
def opcodeRow9 : List Format :=
  [.f2 .bcc, .f2 .staIndY, .f2 .staZpInd, .f1 .nopImp93,
   .f2 .styZpX, .f2 .staZpX, .f2 .stxZpY, .f2 .smb1,
   .f1 .tya, abs16 .staAbsY, .f1 .txs, .f1 .nopImp9B,
   abs16 .stzAbs, abs16 .staAbsX, abs16 .stzAbsX, .f3 .bbs1]

/-- Row Ax of the opcode map (R106, R108). -/
def opcodeRowA : List Format :=
  [.f2 .ldyImm, .f2 .ldaIndX, .f2 .ldxImm, .f1 .nopImpA3,
   .f2 .ldyZp, .f2 .ldaZp, .f2 .ldxZp, .f2 .smb2,
   .f1 .tay, .f2 .ldaImm, .f1 .tax, .f1 .nopImpAB,
   abs16 .ldyAbs, abs16 .ldaAbs, abs16 .ldxAbs, .f3 .bbs2]

/-- Row Bx of the opcode map (R106, R108). -/
def opcodeRowB : List Format :=
  [.f2 .bcs, .f2 .ldaIndY, .f2 .ldaZpInd, .f1 .nopImpB3,
   .f2 .ldyZpX, .f2 .ldaZpX, .f2 .ldxZpY, .f2 .smb3,
   .f1 .clv, abs16 .ldaAbsY, .f1 .tsx, .f1 .nopImpBB,
   abs16 .ldyAbsX, abs16 .ldaAbsX, abs16 .ldxAbsY, .f3 .bbs3]

/-- Row Cx of the opcode map (R106, R108). -/
def opcodeRowC : List Format :=
  [.f2 .cpyImm, .f2 .cmpIndX, .f2 .nopImmC2, .f1 .nopImpC3,
   .f2 .cpyZp, .f2 .cmpZp, .f2 .decZp, .f2 .smb4,
   .f1 .iny, .f2 .cmpImm, .f1 .dex, .f1 .wai,
   abs16 .cpyAbs, abs16 .cmpAbs, abs16 .decAbs, .f3 .bbs4]

/-- Row Dx of the opcode map (R106, R108). -/
def opcodeRowD : List Format :=
  [.f2 .bne, .f2 .cmpIndY, .f2 .cmpZpInd, .f1 .nopImpD3,
   .f2 .nopZpXD4, .f2 .cmpZpX, .f2 .decZpX, .f2 .smb5,
   .f1 .cld, abs16 .cmpAbsY, .f1 .phx, .f1 .stp,
   abs16 .nopAbsDC, abs16 .cmpAbsX, abs16 .decAbsX, .f3 .bbs5]

/-- Row Ex of the opcode map (R106, R108). -/
def opcodeRowE : List Format :=
  [.f2 .cpxImm, .f2 .sbcIndX, .f2 .nopImmE2, .f1 .nopImpE3,
   .f2 .cpxZp, .f2 .sbcZp, .f2 .incZp, .f2 .smb6,
   .f1 .inx, .f2 .sbcImm, .f1 .nop, .f1 .nopImpEB,
   abs16 .cpxAbs, abs16 .sbcAbs, abs16 .incAbs, .f3 .bbs6]

/-- Row Fx of the opcode map (R106, R108). -/
def opcodeRowF : List Format :=
  [.f2 .beq, .f2 .sbcIndY, .f2 .sbcZpInd, .f1 .nopImpF3,
   .f2 .nopZpXF4, .f2 .sbcZpX, .f2 .incZpX, .f2 .smb7,
   .f1 .sed, abs16 .sbcAbsY, .f1 .plx, .f1 .nopImpFB,
   abs16 .nopAbsFC, abs16 .sbcAbsX, abs16 .incAbsX, .f3 .bbs7]

/-- The opcode map, row = high nibble, column = low nibble (R106). -/
def opcodeMap : List (List Format) :=
  [opcodeRow0, opcodeRow1, opcodeRow2, opcodeRow3, opcodeRow4, opcodeRow5, opcodeRow6, opcodeRow7] ++
  [opcodeRow8, opcodeRow9, opcodeRowA, opcodeRowB, opcodeRowC, opcodeRowD, opcodeRowE, opcodeRowF]

/-- The table lookup of R102. The map has 16 rows of 16 (`Laws/Decode.lean`), so the default is never taken. -/
def decodeOpcode (op : Byte) : Format :=
  (opcodeMap.getD (op.toNat / 16) []).getD (op.toNat % 16) (.f1 .nop)

/-- Why bytes are not an instruction. No opcode is illegal (R109): only missing bytes are rejected. -/
inductive DecodeError where
  /-- there is no opcode byte -/
  | noOpcode
  /-- the opcode takes operand bytes that are not there -/
  | missingOperand (opcode : Byte)
  deriving DecidableEq, Repr

/-- Decode the instruction at the head of a list of bytes, and give back the rest (R102, R104). -/
def decode (bytes : List Byte) : Except DecodeError (Instr × List Byte) :=
  match bytes with
  | [] => .error .noOpcode
  | op :: rest =>
    match decodeOpcode op, rest with
    | .f1 i, rest => .ok (i, rest)
    | .f2 make, op1 :: rest => .ok (make op1, rest)
    | .f3 make, op1 :: op2 :: rest => .ok (make op1 op2, rest)
    | .f2 _, [] => .error (.missingOperand op)
    | .f3 _, [] => .error (.missingOperand op)
    | .f3 _, [_] => .error (.missingOperand op)

/-- LENGTH(opcode) of R107. -/
def opcodeLength (op : Byte) : Nat :=
  match decodeOpcode op with
  | .f1 _ => 1
  | .f2 _ => 2
  | .f3 _ => 3

/-- The bytes of an `abs16` operand, low byte first (R105). -/
def abs16Bytes (w : Word) : List Byte := [Machine.lowByte w, Machine.highByte w]

/-- The bytes of an instruction (R104, R105, R106). -/
def encode : Instr → List Byte
  | .brk v => [0x00#8, v]
  | .oraIndX z => [0x01#8, z]
  | .nopImm02 v => [0x02#8, v]
  | .nopImp03 => [0x03#8]
  | .tsbZp z => [0x04#8, z]
  | .oraZp z => [0x05#8, z]
  | .aslZp z => [0x06#8, z]
  | .rmb0 z => [0x07#8, z]
  | .php => [0x08#8]
  | .oraImm v => [0x09#8, v]
  | .aslAcc => [0x0A#8]
  | .nopImp0B => [0x0B#8]
  | .tsbAbs w => 0x0C#8 :: abs16Bytes w
  | .oraAbs w => 0x0D#8 :: abs16Bytes w
  | .aslAbs w => 0x0E#8 :: abs16Bytes w
  | .bbr0 z r => [0x0F#8, z, r]
  | .bpl r => [0x10#8, r]
  | .oraIndY z => [0x11#8, z]
  | .oraZpInd z => [0x12#8, z]
  | .nopImp13 => [0x13#8]
  | .trbZp z => [0x14#8, z]
  | .oraZpX z => [0x15#8, z]
  | .aslZpX z => [0x16#8, z]
  | .rmb1 z => [0x17#8, z]
  | .clc => [0x18#8]
  | .oraAbsY w => 0x19#8 :: abs16Bytes w
  | .incAcc => [0x1A#8]
  | .nopImp1B => [0x1B#8]
  | .trbAbs w => 0x1C#8 :: abs16Bytes w
  | .oraAbsX w => 0x1D#8 :: abs16Bytes w
  | .aslAbsX w => 0x1E#8 :: abs16Bytes w
  | .bbr1 z r => [0x1F#8, z, r]
  | .jsr w => 0x20#8 :: abs16Bytes w
  | .andIndX z => [0x21#8, z]
  | .nopImm22 v => [0x22#8, v]
  | .nopImp23 => [0x23#8]
  | .bitZp z => [0x24#8, z]
  | .andZp z => [0x25#8, z]
  | .rolZp z => [0x26#8, z]
  | .rmb2 z => [0x27#8, z]
  | .plp => [0x28#8]
  | .andImm v => [0x29#8, v]
  | .rolAcc => [0x2A#8]
  | .nopImp2B => [0x2B#8]
  | .bitAbs w => 0x2C#8 :: abs16Bytes w
  | .andAbs w => 0x2D#8 :: abs16Bytes w
  | .rolAbs w => 0x2E#8 :: abs16Bytes w
  | .bbr2 z r => [0x2F#8, z, r]
  | .bmi r => [0x30#8, r]
  | .andIndY z => [0x31#8, z]
  | .andZpInd z => [0x32#8, z]
  | .nopImp33 => [0x33#8]
  | .bitZpX z => [0x34#8, z]
  | .andZpX z => [0x35#8, z]
  | .rolZpX z => [0x36#8, z]
  | .rmb3 z => [0x37#8, z]
  | .sec => [0x38#8]
  | .andAbsY w => 0x39#8 :: abs16Bytes w
  | .decAcc => [0x3A#8]
  | .nopImp3B => [0x3B#8]
  | .bitAbsX w => 0x3C#8 :: abs16Bytes w
  | .andAbsX w => 0x3D#8 :: abs16Bytes w
  | .rolAbsX w => 0x3E#8 :: abs16Bytes w
  | .bbr3 z r => [0x3F#8, z, r]
  | .rti => [0x40#8]
  | .eorIndX z => [0x41#8, z]
  | .nopImm42 v => [0x42#8, v]
  | .nopImp43 => [0x43#8]
  | .nopZp44 z => [0x44#8, z]
  | .eorZp z => [0x45#8, z]
  | .lsrZp z => [0x46#8, z]
  | .rmb4 z => [0x47#8, z]
  | .pha => [0x48#8]
  | .eorImm v => [0x49#8, v]
  | .lsrAcc => [0x4A#8]
  | .nopImp4B => [0x4B#8]
  | .jmpAbs w => 0x4C#8 :: abs16Bytes w
  | .eorAbs w => 0x4D#8 :: abs16Bytes w
  | .lsrAbs w => 0x4E#8 :: abs16Bytes w
  | .bbr4 z r => [0x4F#8, z, r]
  | .bvc r => [0x50#8, r]
  | .eorIndY z => [0x51#8, z]
  | .eorZpInd z => [0x52#8, z]
  | .nopImp53 => [0x53#8]
  | .nopZpX54 z => [0x54#8, z]
  | .eorZpX z => [0x55#8, z]
  | .lsrZpX z => [0x56#8, z]
  | .rmb5 z => [0x57#8, z]
  | .cli => [0x58#8]
  | .eorAbsY w => 0x59#8 :: abs16Bytes w
  | .phy => [0x5A#8]
  | .nopImp5B => [0x5B#8]
  | .nopAbs5C w => 0x5C#8 :: abs16Bytes w
  | .eorAbsX w => 0x5D#8 :: abs16Bytes w
  | .lsrAbsX w => 0x5E#8 :: abs16Bytes w
  | .bbr5 z r => [0x5F#8, z, r]
  | .rts => [0x60#8]
  | .adcIndX z => [0x61#8, z]
  | .nopImm62 v => [0x62#8, v]
  | .nopImp63 => [0x63#8]
  | .stzZp z => [0x64#8, z]
  | .adcZp z => [0x65#8, z]
  | .rorZp z => [0x66#8, z]
  | .rmb6 z => [0x67#8, z]
  | .pla => [0x68#8]
  | .adcImm v => [0x69#8, v]
  | .rorAcc => [0x6A#8]
  | .nopImp6B => [0x6B#8]
  | .jmpInd w => 0x6C#8 :: abs16Bytes w
  | .adcAbs w => 0x6D#8 :: abs16Bytes w
  | .rorAbs w => 0x6E#8 :: abs16Bytes w
  | .bbr6 z r => [0x6F#8, z, r]
  | .bvs r => [0x70#8, r]
  | .adcIndY z => [0x71#8, z]
  | .adcZpInd z => [0x72#8, z]
  | .nopImp73 => [0x73#8]
  | .stzZpX z => [0x74#8, z]
  | .adcZpX z => [0x75#8, z]
  | .rorZpX z => [0x76#8, z]
  | .rmb7 z => [0x77#8, z]
  | .sei => [0x78#8]
  | .adcAbsY w => 0x79#8 :: abs16Bytes w
  | .ply => [0x7A#8]
  | .nopImp7B => [0x7B#8]
  | .jmpAbsIndX w => 0x7C#8 :: abs16Bytes w
  | .adcAbsX w => 0x7D#8 :: abs16Bytes w
  | .rorAbsX w => 0x7E#8 :: abs16Bytes w
  | .bbr7 z r => [0x7F#8, z, r]
  | .bra r => [0x80#8, r]
  | .staIndX z => [0x81#8, z]
  | .nopImm82 v => [0x82#8, v]
  | .nopImp83 => [0x83#8]
  | .styZp z => [0x84#8, z]
  | .staZp z => [0x85#8, z]
  | .stxZp z => [0x86#8, z]
  | .smb0 z => [0x87#8, z]
  | .dey => [0x88#8]
  | .bitImm v => [0x89#8, v]
  | .txa => [0x8A#8]
  | .nopImp8B => [0x8B#8]
  | .styAbs w => 0x8C#8 :: abs16Bytes w
  | .staAbs w => 0x8D#8 :: abs16Bytes w
  | .stxAbs w => 0x8E#8 :: abs16Bytes w
  | .bbs0 z r => [0x8F#8, z, r]
  | .bcc r => [0x90#8, r]
  | .staIndY z => [0x91#8, z]
  | .staZpInd z => [0x92#8, z]
  | .nopImp93 => [0x93#8]
  | .styZpX z => [0x94#8, z]
  | .staZpX z => [0x95#8, z]
  | .stxZpY z => [0x96#8, z]
  | .smb1 z => [0x97#8, z]
  | .tya => [0x98#8]
  | .staAbsY w => 0x99#8 :: abs16Bytes w
  | .txs => [0x9A#8]
  | .nopImp9B => [0x9B#8]
  | .stzAbs w => 0x9C#8 :: abs16Bytes w
  | .staAbsX w => 0x9D#8 :: abs16Bytes w
  | .stzAbsX w => 0x9E#8 :: abs16Bytes w
  | .bbs1 z r => [0x9F#8, z, r]
  | .ldyImm v => [0xA0#8, v]
  | .ldaIndX z => [0xA1#8, z]
  | .ldxImm v => [0xA2#8, v]
  | .nopImpA3 => [0xA3#8]
  | .ldyZp z => [0xA4#8, z]
  | .ldaZp z => [0xA5#8, z]
  | .ldxZp z => [0xA6#8, z]
  | .smb2 z => [0xA7#8, z]
  | .tay => [0xA8#8]
  | .ldaImm v => [0xA9#8, v]
  | .tax => [0xAA#8]
  | .nopImpAB => [0xAB#8]
  | .ldyAbs w => 0xAC#8 :: abs16Bytes w
  | .ldaAbs w => 0xAD#8 :: abs16Bytes w
  | .ldxAbs w => 0xAE#8 :: abs16Bytes w
  | .bbs2 z r => [0xAF#8, z, r]
  | .bcs r => [0xB0#8, r]
  | .ldaIndY z => [0xB1#8, z]
  | .ldaZpInd z => [0xB2#8, z]
  | .nopImpB3 => [0xB3#8]
  | .ldyZpX z => [0xB4#8, z]
  | .ldaZpX z => [0xB5#8, z]
  | .ldxZpY z => [0xB6#8, z]
  | .smb3 z => [0xB7#8, z]
  | .clv => [0xB8#8]
  | .ldaAbsY w => 0xB9#8 :: abs16Bytes w
  | .tsx => [0xBA#8]
  | .nopImpBB => [0xBB#8]
  | .ldyAbsX w => 0xBC#8 :: abs16Bytes w
  | .ldaAbsX w => 0xBD#8 :: abs16Bytes w
  | .ldxAbsY w => 0xBE#8 :: abs16Bytes w
  | .bbs3 z r => [0xBF#8, z, r]
  | .cpyImm v => [0xC0#8, v]
  | .cmpIndX z => [0xC1#8, z]
  | .nopImmC2 v => [0xC2#8, v]
  | .nopImpC3 => [0xC3#8]
  | .cpyZp z => [0xC4#8, z]
  | .cmpZp z => [0xC5#8, z]
  | .decZp z => [0xC6#8, z]
  | .smb4 z => [0xC7#8, z]
  | .iny => [0xC8#8]
  | .cmpImm v => [0xC9#8, v]
  | .dex => [0xCA#8]
  | .wai => [0xCB#8]
  | .cpyAbs w => 0xCC#8 :: abs16Bytes w
  | .cmpAbs w => 0xCD#8 :: abs16Bytes w
  | .decAbs w => 0xCE#8 :: abs16Bytes w
  | .bbs4 z r => [0xCF#8, z, r]
  | .bne r => [0xD0#8, r]
  | .cmpIndY z => [0xD1#8, z]
  | .cmpZpInd z => [0xD2#8, z]
  | .nopImpD3 => [0xD3#8]
  | .nopZpXD4 z => [0xD4#8, z]
  | .cmpZpX z => [0xD5#8, z]
  | .decZpX z => [0xD6#8, z]
  | .smb5 z => [0xD7#8, z]
  | .cld => [0xD8#8]
  | .cmpAbsY w => 0xD9#8 :: abs16Bytes w
  | .phx => [0xDA#8]
  | .stp => [0xDB#8]
  | .nopAbsDC w => 0xDC#8 :: abs16Bytes w
  | .cmpAbsX w => 0xDD#8 :: abs16Bytes w
  | .decAbsX w => 0xDE#8 :: abs16Bytes w
  | .bbs5 z r => [0xDF#8, z, r]
  | .cpxImm v => [0xE0#8, v]
  | .sbcIndX z => [0xE1#8, z]
  | .nopImmE2 v => [0xE2#8, v]
  | .nopImpE3 => [0xE3#8]
  | .cpxZp z => [0xE4#8, z]
  | .sbcZp z => [0xE5#8, z]
  | .incZp z => [0xE6#8, z]
  | .smb6 z => [0xE7#8, z]
  | .inx => [0xE8#8]
  | .sbcImm v => [0xE9#8, v]
  | .nop => [0xEA#8]
  | .nopImpEB => [0xEB#8]
  | .cpxAbs w => 0xEC#8 :: abs16Bytes w
  | .sbcAbs w => 0xED#8 :: abs16Bytes w
  | .incAbs w => 0xEE#8 :: abs16Bytes w
  | .bbs6 z r => [0xEF#8, z, r]
  | .beq r => [0xF0#8, r]
  | .sbcIndY z => [0xF1#8, z]
  | .sbcZpInd z => [0xF2#8, z]
  | .nopImpF3 => [0xF3#8]
  | .nopZpXF4 z => [0xF4#8, z]
  | .sbcZpX z => [0xF5#8, z]
  | .incZpX z => [0xF6#8, z]
  | .smb7 z => [0xF7#8, z]
  | .sed => [0xF8#8]
  | .sbcAbsY w => 0xF9#8 :: abs16Bytes w
  | .plx => [0xFA#8]
  | .nopImpFB => [0xFB#8]
  | .nopAbsFC w => 0xFC#8 :: abs16Bytes w
  | .sbcAbsX w => 0xFD#8 :: abs16Bytes w
  | .incAbsX w => 0xFE#8 :: abs16Bytes w
  | .bbs7 z r => [0xFF#8, z, r]

/-- The addressing mode the opcode table gives the instruction (R102, R106); BRK is Immediate (C6). -/
def addrMode : Instr → AddrMode
  | .brk _ => .immediate
  | .oraIndX _ => .indirectX
  | .nopImm02 _ => .immediate
  | .nopImp03 => .implied
  | .tsbZp _ => .zeroPage
  | .oraZp _ => .zeroPage
  | .aslZp _ => .zeroPage
  | .rmb0 _ => .zeroPage
  | .php => .implied
  | .oraImm _ => .immediate
  | .aslAcc => .accumulator
  | .nopImp0B => .implied
  | .tsbAbs _ => .absolute
  | .oraAbs _ => .absolute
  | .aslAbs _ => .absolute
  | .bbr0 _ _ => .zeroPageRelative
  | .bpl _ => .relative
  | .oraIndY _ => .indirectY
  | .oraZpInd _ => .zeroPageIndirect
  | .nopImp13 => .implied
  | .trbZp _ => .zeroPage
  | .oraZpX _ => .zeroPageX
  | .aslZpX _ => .zeroPageX
  | .rmb1 _ => .zeroPage
  | .clc => .implied
  | .oraAbsY _ => .absoluteY
  | .incAcc => .accumulator
  | .nopImp1B => .implied
  | .trbAbs _ => .absolute
  | .oraAbsX _ => .absoluteX
  | .aslAbsX _ => .absoluteX
  | .bbr1 _ _ => .zeroPageRelative
  | .jsr _ => .absolute
  | .andIndX _ => .indirectX
  | .nopImm22 _ => .immediate
  | .nopImp23 => .implied
  | .bitZp _ => .zeroPage
  | .andZp _ => .zeroPage
  | .rolZp _ => .zeroPage
  | .rmb2 _ => .zeroPage
  | .plp => .implied
  | .andImm _ => .immediate
  | .rolAcc => .accumulator
  | .nopImp2B => .implied
  | .bitAbs _ => .absolute
  | .andAbs _ => .absolute
  | .rolAbs _ => .absolute
  | .bbr2 _ _ => .zeroPageRelative
  | .bmi _ => .relative
  | .andIndY _ => .indirectY
  | .andZpInd _ => .zeroPageIndirect
  | .nopImp33 => .implied
  | .bitZpX _ => .zeroPageX
  | .andZpX _ => .zeroPageX
  | .rolZpX _ => .zeroPageX
  | .rmb3 _ => .zeroPage
  | .sec => .implied
  | .andAbsY _ => .absoluteY
  | .decAcc => .accumulator
  | .nopImp3B => .implied
  | .bitAbsX _ => .absoluteX
  | .andAbsX _ => .absoluteX
  | .rolAbsX _ => .absoluteX
  | .bbr3 _ _ => .zeroPageRelative
  | .rti => .implied
  | .eorIndX _ => .indirectX
  | .nopImm42 _ => .immediate
  | .nopImp43 => .implied
  | .nopZp44 _ => .zeroPage
  | .eorZp _ => .zeroPage
  | .lsrZp _ => .zeroPage
  | .rmb4 _ => .zeroPage
  | .pha => .implied
  | .eorImm _ => .immediate
  | .lsrAcc => .accumulator
  | .nopImp4B => .implied
  | .jmpAbs _ => .absolute
  | .eorAbs _ => .absolute
  | .lsrAbs _ => .absolute
  | .bbr4 _ _ => .zeroPageRelative
  | .bvc _ => .relative
  | .eorIndY _ => .indirectY
  | .eorZpInd _ => .zeroPageIndirect
  | .nopImp53 => .implied
  | .nopZpX54 _ => .zeroPageX
  | .eorZpX _ => .zeroPageX
  | .lsrZpX _ => .zeroPageX
  | .rmb5 _ => .zeroPage
  | .cli => .implied
  | .eorAbsY _ => .absoluteY
  | .phy => .implied
  | .nopImp5B => .implied
  | .nopAbs5C _ => .absolute
  | .eorAbsX _ => .absoluteX
  | .lsrAbsX _ => .absoluteX
  | .bbr5 _ _ => .zeroPageRelative
  | .rts => .implied
  | .adcIndX _ => .indirectX
  | .nopImm62 _ => .immediate
  | .nopImp63 => .implied
  | .stzZp _ => .zeroPage
  | .adcZp _ => .zeroPage
  | .rorZp _ => .zeroPage
  | .rmb6 _ => .zeroPage
  | .pla => .implied
  | .adcImm _ => .immediate
  | .rorAcc => .accumulator
  | .nopImp6B => .implied
  | .jmpInd _ => .indirect
  | .adcAbs _ => .absolute
  | .rorAbs _ => .absolute
  | .bbr6 _ _ => .zeroPageRelative
  | .bvs _ => .relative
  | .adcIndY _ => .indirectY
  | .adcZpInd _ => .zeroPageIndirect
  | .nopImp73 => .implied
  | .stzZpX _ => .zeroPageX
  | .adcZpX _ => .zeroPageX
  | .rorZpX _ => .zeroPageX
  | .rmb7 _ => .zeroPage
  | .sei => .implied
  | .adcAbsY _ => .absoluteY
  | .ply => .implied
  | .nopImp7B => .implied
  | .jmpAbsIndX _ => .absoluteIndexedIndirect
  | .adcAbsX _ => .absoluteX
  | .rorAbsX _ => .absoluteX
  | .bbr7 _ _ => .zeroPageRelative
  | .bra _ => .relative
  | .staIndX _ => .indirectX
  | .nopImm82 _ => .immediate
  | .nopImp83 => .implied
  | .styZp _ => .zeroPage
  | .staZp _ => .zeroPage
  | .stxZp _ => .zeroPage
  | .smb0 _ => .zeroPage
  | .dey => .implied
  | .bitImm _ => .immediate
  | .txa => .implied
  | .nopImp8B => .implied
  | .styAbs _ => .absolute
  | .staAbs _ => .absolute
  | .stxAbs _ => .absolute
  | .bbs0 _ _ => .zeroPageRelative
  | .bcc _ => .relative
  | .staIndY _ => .indirectY
  | .staZpInd _ => .zeroPageIndirect
  | .nopImp93 => .implied
  | .styZpX _ => .zeroPageX
  | .staZpX _ => .zeroPageX
  | .stxZpY _ => .zeroPageY
  | .smb1 _ => .zeroPage
  | .tya => .implied
  | .staAbsY _ => .absoluteY
  | .txs => .implied
  | .nopImp9B => .implied
  | .stzAbs _ => .absolute
  | .staAbsX _ => .absoluteX
  | .stzAbsX _ => .absoluteX
  | .bbs1 _ _ => .zeroPageRelative
  | .ldyImm _ => .immediate
  | .ldaIndX _ => .indirectX
  | .ldxImm _ => .immediate
  | .nopImpA3 => .implied
  | .ldyZp _ => .zeroPage
  | .ldaZp _ => .zeroPage
  | .ldxZp _ => .zeroPage
  | .smb2 _ => .zeroPage
  | .tay => .implied
  | .ldaImm _ => .immediate
  | .tax => .implied
  | .nopImpAB => .implied
  | .ldyAbs _ => .absolute
  | .ldaAbs _ => .absolute
  | .ldxAbs _ => .absolute
  | .bbs2 _ _ => .zeroPageRelative
  | .bcs _ => .relative
  | .ldaIndY _ => .indirectY
  | .ldaZpInd _ => .zeroPageIndirect
  | .nopImpB3 => .implied
  | .ldyZpX _ => .zeroPageX
  | .ldaZpX _ => .zeroPageX
  | .ldxZpY _ => .zeroPageY
  | .smb3 _ => .zeroPage
  | .clv => .implied
  | .ldaAbsY _ => .absoluteY
  | .tsx => .implied
  | .nopImpBB => .implied
  | .ldyAbsX _ => .absoluteX
  | .ldaAbsX _ => .absoluteX
  | .ldxAbsY _ => .absoluteY
  | .bbs3 _ _ => .zeroPageRelative
  | .cpyImm _ => .immediate
  | .cmpIndX _ => .indirectX
  | .nopImmC2 _ => .immediate
  | .nopImpC3 => .implied
  | .cpyZp _ => .zeroPage
  | .cmpZp _ => .zeroPage
  | .decZp _ => .zeroPage
  | .smb4 _ => .zeroPage
  | .iny => .implied
  | .cmpImm _ => .immediate
  | .dex => .implied
  | .wai => .implied
  | .cpyAbs _ => .absolute
  | .cmpAbs _ => .absolute
  | .decAbs _ => .absolute
  | .bbs4 _ _ => .zeroPageRelative
  | .bne _ => .relative
  | .cmpIndY _ => .indirectY
  | .cmpZpInd _ => .zeroPageIndirect
  | .nopImpD3 => .implied
  | .nopZpXD4 _ => .zeroPageX
  | .cmpZpX _ => .zeroPageX
  | .decZpX _ => .zeroPageX
  | .smb5 _ => .zeroPage
  | .cld => .implied
  | .cmpAbsY _ => .absoluteY
  | .phx => .implied
  | .stp => .implied
  | .nopAbsDC _ => .absolute
  | .cmpAbsX _ => .absoluteX
  | .decAbsX _ => .absoluteX
  | .bbs5 _ _ => .zeroPageRelative
  | .cpxImm _ => .immediate
  | .sbcIndX _ => .indirectX
  | .nopImmE2 _ => .immediate
  | .nopImpE3 => .implied
  | .cpxZp _ => .zeroPage
  | .sbcZp _ => .zeroPage
  | .incZp _ => .zeroPage
  | .smb6 _ => .zeroPage
  | .inx => .implied
  | .sbcImm _ => .immediate
  | .nop => .implied
  | .nopImpEB => .implied
  | .cpxAbs _ => .absolute
  | .sbcAbs _ => .absolute
  | .incAbs _ => .absolute
  | .bbs6 _ _ => .zeroPageRelative
  | .beq _ => .relative
  | .sbcIndY _ => .indirectY
  | .sbcZpInd _ => .zeroPageIndirect
  | .nopImpF3 => .implied
  | .nopZpXF4 _ => .zeroPageX
  | .sbcZpX _ => .zeroPageX
  | .incZpX _ => .zeroPageX
  | .smb7 _ => .zeroPage
  | .sed => .implied
  | .sbcAbsY _ => .absoluteY
  | .plx => .implied
  | .nopImpFB => .implied
  | .nopAbsFC _ => .absolute
  | .sbcAbsX _ => .absoluteX
  | .incAbsX _ => .absoluteX
  | .bbs7 _ _ => .zeroPageRelative

/-- The operand bytes a mode consumes (R107, R131 to R146). -/
def operandBytes : AddrMode → Nat
  | .implied => 0
  | .accumulator => 0
  | .immediate => 1
  | .zeroPage => 1
  | .zeroPageX => 1
  | .zeroPageY => 1
  | .zeroPageIndirect => 1
  | .indirectX => 1
  | .indirectY => 1
  | .relative => 1
  | .absolute => 2
  | .absoluteX => 2
  | .absoluteY => 2
  | .indirect => 2
  | .absoluteIndexedIndirect => 2
  | .zeroPageRelative => 2

/-- `len` of R18 and R107: the opcode byte and the mode's operand bytes. -/
def instrLength (i : Instr) : Nat := 1 + operandBytes (addrMode i)

/-- The low `nbits` bits of a table word as the three bytes of the longest instruction, first byte first. -/
def tableBytes (nbits w : Nat) : List Byte :=
  let v := w % 2 ^ nbits
  [BitVec.ofNat 8 v, BitVec.ofNat 8 (v / 256), BitVec.ofNat 8 (v / 65536)]

/-- The instruction this decoder reads from the bits `w`, numbered as spec/opcode_table.json numbers them: byte 0
is bits 7..0, byte 1 bits 15..8, byte 2 bits 23..16; the bits above `nbits` are zero. -/
def decodeTableWord (nbits w : Nat) : Option Instr :=
  match decode (tableBytes nbits w) with
  | .ok (i, _) => some i
  | .error _ => none

end Sys2Proof
end

