-- ==== Sys2Proof/Machine/Fetch.lean ====
section
/-! DEFINITION. Fetching an instruction (30_encoding.md R100, R101, R103, R104). -/

namespace Sys2Proof.Machine

/-- Read the opcode byte at PC and its operand bytes at the next addresses, in increasing order and mod 65536
(R101, R103, R67), and give the instruction with `next = (pc0 + len) mod 65536`. No byte is read that the
instruction does not have. -/
def fetch (s : State) : Except Fault (Instr × Word) := do
  let opc ← readByte s.PC s
  match decodeOpcode opc with
  | .f1 i => return (i, s.PC + 1#16)
  | .f2 make => do
    let op1 ← readByte (s.PC + 1#16) s
    return (make op1, s.PC + 2#16)
  | .f3 make => do
    let op1 ← readByte (s.PC + 1#16) s
    let op2 ← readByte (s.PC + 2#16) s
    return (make op1 op2, s.PC + 3#16)

/-- Place three bytes at the address of the next fetch (log 9). -/
def placeAtPc (bytes : List Byte) (s : State) : AddressSpace :=
  ((s.bus.poke s.PC (bytes.getD 0 0x00#8)).poke (s.PC + 1#16) (bytes.getD 1 0x00#8)).poke (s.PC + 2#16)
    (bytes.getD 2 0x00#8)

end Sys2Proof.Machine
end

