-- ==== Sys2Proof/Machine/Step.lean ====
section
/-! DEFINITION. One step (30_encoding.md R100). -/

namespace Sys2Proof.Machine

/-- `step()`: a Stopped core, and a Waiting core with no request pending, hold: the state stays as it is
(R352; log 7). A Waiting core with a request wakes. A Running core fetches, sets PC to `next`, executes, and
runs the interrupt check. -/
def step (s : State) : Host.Outcome State Fault Refusal :=
  match s.mode with
  | .stopped => .next s
  | .waiting => if wakes s then answer (wake s) else .next s
  | .running =>
    match fetch s with
    | .error f => .fault f
    | .ok (i, next) => finishStep (exec i { s with PC := next })

/-- `s` with the instruction whose bits are `w` placed where the next step fetches, and Running (log 8, log 9). -/
def State.withFetchWord (s : State) (nbits w : Nat) : State :=
  { s with mode := .running, bus := placeAtPc (tableBytes nbits w) s }

end Sys2Proof.Machine
end

