-- ==== Sys2Proof/Machine/HostOps.lean ====
section
/-! DEFINITION. What the host does to the core, between steps (10_state.md R45, 70_reset_and_hazards.md R385):
`reset()`, `request_interrupt(kind)`, and `step()` with its three answers. -/

namespace Sys2Proof.Machine

/-- `request_interrupt(kind)`: latch the request (60_exceptions.md R346; log 17). -/
def requestInterrupt (k : Interrupt) (s : State) : State :=
  match k with
  | .nmi => { s with pendingNmi := true }
  | .irq => { s with pendingIrq := true }

/-- The values a reset draws (70_reset_and_hazards.md R381); `PC` is drawn only when the vector cannot be read
(R380, D29). -/
structure Draws where
  A : Byte
  X : Byte
  Y : Byte
  SP : Byte
  N : Bool
  V : Bool
  Z : Bool
  C : Bool
  PC : Word
  deriving DecidableEq, Repr

/-- The draws of State.reset (log 2). -/
def Draws.zero : Draws :=
  { A := 0x00#8, X := 0x00#8, Y := 0x00#8, SP := 0x00#8, N := false, V := false, Z := false, C := false,
    PC := 0x0000#16 }

/-- What `reset()` answers, with the state it leaves (R380). -/
inductive ResetResult where
  | ok (s : State)
  | fault (f : Fault) (s : State)
  deriving DecidableEq, Repr

/-- The assignments of R380 before the vector is read. -/
def resetRegisters (d : Draws) (s : State) : State :=
  { s with A := d.A, X := d.X, Y := d.Y, SP := d.SP, N := d.N, V := d.V, Z := d.Z, C := d.C,
           D := false, I := true, pendingNmi := false, pendingIrq := false, inService := false,
           mode := .running }

/-- `reset()` (R380, R381): taken in any mode; writes no memory. If a vector byte cannot be read the other
assignments stand, PC is a draw and mode is Stopped (D29; log 13). -/
def hostReset (d : Draws) (s : State) : ResetResult :=
  let t := resetRegisters d s
  match read16 vecReset t with
  | .ok pc => .ok { t with PC := pc }
  | .error f => .fault f { t with PC := d.PC, mode := .stopped }

/-- What `step()` answers its host (R45, R19). -/
inductive StepReport where
  | ok
  | hold
  | fault (f : Fault)
  | refused (r : Refusal)
  deriving DecidableEq, Repr

/-- `step()` as the host sees it: the answer, and the state after. A hold and a fault leave the state as it was
(R342, R352). -/
def hostStep (s : State) : StepReport × State :=
  if holds s then (.hold, s)
  else
    match step s with
    | .next t => (.ok, t)
    | .fault f => (.fault f, s)
    | .refused r => (.refused r, s)

end Sys2Proof.Machine
end

