-- ==== Sys2Proof/WellFormed.lean ====
section
/-! DEFINITION. Well-formedness. An operand of `Instr` has exactly the width of its encoding, so every
instruction is well formed (30_encoding.md R109, no encoding is illegal); `Laws/PerInstr.lean` proves it, one
constructor at a time. What can be ill formed is a list of bytes offered as one instruction, and the data of an
address space. -/

namespace Sys2Proof

/-- The bytes are one whole instruction: an opcode byte and exactly the operand bytes LENGTH(opcode) asks for
(R104, R107). -/
def codeWellFormed (bytes : List Byte) : Bool :=
  match bytes with
  | [] => false
  | op :: operands => opcodeLength op == 1 + operands.length

/-- An instruction is well formed when its bytes are. -/
def Instr.wellFormed (i : Instr) : Bool := codeWellFormed (encode i)

namespace Machine

/-- The harness memory is canonical and lies in the 16-bit space. -/
def Harness.wf (h : Harness) : Bool := h.mem.wf && h.mem.within 0x10000

/-- The cpu_to_mcu table names core addresses, rising. -/
def mapWf (table : List (Nat × McuAddr)) : Bool :=
  decide ((table.map Prod.fst).Pairwise (· < ·)) && table.all fun e => e.1 < 0x10000

/-- OTP_LEN > 0 (00_scope.md R11); the images are canonical and no longer than their regions (20_memory.md R84);
the map is a map (R86). -/
def Handheld.wf (h : Handheld) : Bool :=
  decide (0 < h.otpLen) && (h.otp.wf && h.otp.within h.otpLen) && (h.flash.wf && h.flash.within flashLen) &&
    mapWf h.cpuToMcu

/-- The data of the bound address space is well formed; the number of an external one always is. -/
def AddressSpace.wf (m : AddressSpace) : Bool :=
  match m with
  | .harness h => h.wf
  | .handheld h => h.wf
  | .external _ => true

end Machine

end Sys2Proof
end

