-- ==== Sys2Proof/Safety.lean ====
section
/-! DEFINITION. What counts as a safe run, in the terms the statements use: the invariant that every step keeps,
and for each instruction the state it may write. -/

namespace Sys2Proof.Machine

/-- The data of the bound address space is well formed: memories canonical and inside their spaces, OTP_LEN
above 0 (00_scope.md R11, 20_memory.md R84, R85). Everything else of State is legal in every value (R8, R43). -/
def State.Inv (s : State) : Prop := s.bus.wf = true

/-- `n` is what accepted writes at the addresses listed, in this order, make of `m`: all that a step does to an
address space (20_memory.md R60, R67). -/
def Written (addresses : List Word) (m n : AddressSpace) : Prop :=
  match addresses with
  | [] => n = m
  | a :: rest => ∃ (v : Byte) (k : AddressSpace), m.write a v = .ok k ∧ Written rest k n

/-- Which items of the record an instruction may write, PC apart: the registers by R31 to R34 of 10_state.md, the
flags by its table R40, in_service by R42, mode by R43, memory by the instructions' own rules. -/
structure Writes where
  A : Bool := false
  X : Bool := false
  Y : Bool := false
  SP : Bool := false
  N : Bool := false
  V : Bool := false
  D : Bool := false
  I : Bool := false
  Z : Bool := false
  C : Bool := false
  inService : Bool := false
  mode : Bool := false
  mem : Bool := false
  deriving DecidableEq, Repr

/-- `t` differs from `s` only in PC and in items `w` allows; the pending bits and the parameters never differ. -/
def KeepsTheRest (w : Writes) (s t : State) : Prop :=
  (w.A = false → t.A = s.A) ∧ (w.X = false → t.X = s.X) ∧ (w.Y = false → t.Y = s.Y) ∧
  (w.SP = false → t.SP = s.SP) ∧ (w.N = false → t.N = s.N) ∧ (w.V = false → t.V = s.V) ∧
  (w.D = false → t.D = s.D) ∧ (w.I = false → t.I = s.I) ∧ (w.Z = false → t.Z = s.Z) ∧
  (w.C = false → t.C = s.C) ∧ (w.inService = false → t.inService = s.inService) ∧
  (w.mode = false → t.mode = s.mode) ∧ (w.mem = false → t.bus = s.bus) ∧
  t.pendingNmi = s.pendingNmi ∧ t.pendingIrq = s.pendingIrq ∧ t.params = s.params

/-- The table of what each instruction may write. -/
def writesOf : Instr → Writes
  | .brk _ => { SP := true, D := true, I := true, mem := true }
  | .oraIndX _ | .oraZp _ | .oraImm _ | .oraAbs _ | .oraIndY _ | .oraZpInd _ | .oraZpX _ | .oraAbsY _ | .incAcc
  | .oraAbsX _ | .andIndX _ | .andZp _ | .andImm _ | .andAbs _ | .andIndY _ | .andZpInd _ | .andZpX _
  | .andAbsY _ | .decAcc | .andAbsX _ | .eorIndX _ | .eorZp _ | .eorImm _ | .eorAbs _ | .eorIndY _
  | .eorZpInd _ | .eorZpX _ | .eorAbsY _ | .eorAbsX _ | .txa | .tya | .ldaIndX _ | .ldaZp _ | .ldaImm _
  | .ldaAbs _ | .ldaIndY _ | .ldaZpInd _ | .ldaZpX _ | .ldaAbsY _ | .ldaAbsX _ =>
    { A := true, N := true, Z := true }
  | .nopImm02 _ | .nopImp03 | .nopImp0B | .bbr0 _ _ | .bpl _ | .nopImp13 | .nopImp1B | .bbr1 _ _ | .nopImm22 _
  | .nopImp23 | .nopImp2B | .bbr2 _ _ | .bmi _ | .nopImp33 | .nopImp3B | .bbr3 _ _ | .nopImm42 _ | .nopImp43
  | .nopZp44 _ | .nopImp4B | .jmpAbs _ | .bbr4 _ _ | .bvc _ | .nopImp53 | .nopZpX54 _ | .nopImp5B | .nopAbs5C _
  | .bbr5 _ _ | .nopImm62 _ | .nopImp63 | .nopImp6B | .jmpInd _ | .bbr6 _ _ | .bvs _ | .nopImp73 | .nopImp7B
  | .jmpAbsIndX _ | .bbr7 _ _ | .bra _ | .nopImm82 _ | .nopImp83 | .nopImp8B | .bbs0 _ _ | .bcc _ | .nopImp93
  | .nopImp9B | .bbs1 _ _ | .nopImpA3 | .nopImpAB | .bbs2 _ _ | .bcs _ | .nopImpB3 | .nopImpBB | .bbs3 _ _
  | .nopImmC2 _ | .nopImpC3 | .bbs4 _ _ | .bne _ | .nopImpD3 | .nopZpXD4 _ | .nopAbsDC _ | .bbs5 _ _
  | .nopImmE2 _ | .nopImpE3 | .nop | .nopImpEB | .bbs6 _ _ | .beq _ | .nopImpF3 | .nopZpXF4 _ | .nopImpFB
  | .nopAbsFC _ | .bbs7 _ _ => {}
  | .tsbZp _ | .tsbAbs _ | .trbZp _ | .trbAbs _ => { Z := true, mem := true }
  | .aslZp _ | .aslAbs _ | .aslZpX _ | .aslAbsX _ | .rolZp _ | .rolAbs _ | .rolZpX _ | .rolAbsX _ | .lsrZp _
  | .lsrAbs _ | .lsrZpX _ | .lsrAbsX _ | .rorZp _ | .rorAbs _ | .rorZpX _ | .rorAbsX _ =>
    { N := true, Z := true, C := true, mem := true }
  | .rmb0 _ | .rmb1 _ | .rmb2 _ | .rmb3 _ | .rmb4 _ | .rmb5 _ | .stzZp _ | .rmb6 _ | .stzZpX _ | .rmb7 _
  | .staIndX _ | .styZp _ | .staZp _ | .stxZp _ | .smb0 _ | .styAbs _ | .staAbs _ | .stxAbs _ | .staIndY _
  | .staZpInd _ | .styZpX _ | .staZpX _ | .stxZpY _ | .smb1 _ | .staAbsY _ | .stzAbs _ | .staAbsX _
  | .stzAbsX _ | .smb2 _ | .smb3 _ | .smb4 _ | .smb5 _ | .smb6 _ | .smb7 _ => { mem := true }
  | .php | .jsr _ | .pha | .phy | .phx => { SP := true, mem := true }
  | .aslAcc | .rolAcc | .lsrAcc | .rorAcc => { A := true, N := true, Z := true, C := true }
  | .clc | .sec => { C := true }
  | .bitZp _ | .bitAbs _ | .bitZpX _ | .bitAbsX _ => { N := true, V := true, Z := true }
  | .plp => { SP := true, N := true, V := true, D := true, I := true, Z := true, C := true }
  | .rti => { SP := true, N := true, V := true, D := true, I := true, Z := true, C := true, inService := true }
  | .cli | .sei => { I := true }
  | .rts | .txs => { SP := true }
  | .adcIndX _ | .adcZp _ | .adcImm _ | .adcAbs _ | .adcIndY _ | .adcZpInd _ | .adcZpX _ | .adcAbsY _
  | .adcAbsX _ | .sbcIndX _ | .sbcZp _ | .sbcImm _ | .sbcAbs _ | .sbcIndY _ | .sbcZpInd _ | .sbcZpX _
  | .sbcAbsY _ | .sbcAbsX _ => { A := true, N := true, V := true, Z := true, C := true }
  | .pla => { A := true, SP := true, N := true, Z := true }
  | .ply => { Y := true, SP := true, N := true, Z := true }
  | .dey | .ldyImm _ | .ldyZp _ | .tay | .ldyAbs _ | .ldyZpX _ | .ldyAbsX _ | .iny =>
    { Y := true, N := true, Z := true }
  | .bitImm _ => { Z := true }
  | .ldxImm _ | .ldxZp _ | .tax | .ldxAbs _ | .ldxZpY _ | .tsx | .ldxAbsY _ | .dex | .inx =>
    { X := true, N := true, Z := true }
  | .clv => { V := true }
  | .cpyImm _ | .cmpIndX _ | .cpyZp _ | .cmpZp _ | .cmpImm _ | .cpyAbs _ | .cmpAbs _ | .cmpIndY _ | .cmpZpInd _
  | .cmpZpX _ | .cmpAbsY _ | .cmpAbsX _ | .cpxImm _ | .cpxZp _ | .cpxAbs _ =>
    { N := true, Z := true, C := true }
  | .decZp _ | .decAbs _ | .decZpX _ | .decAbsX _ | .incZp _ | .incAbs _ | .incZpX _ | .incAbsX _ =>
    { N := true, Z := true, mem := true }
  | .wai | .stp => { mode := true }
  | .cld | .sed => { D := true }
  | .plx => { X := true, SP := true, N := true, Z := true }

end Sys2Proof.Machine
end

