-- ==== Sys2Proof/Certificates/Slice0/Obligations.lean ====
section
/-! DEFINITION. The statements for the provers, from the numbered rules of the spec. `exec i s` is given the state
in which PC is already `next` (00_scope.md R18). A statement that gives the whole next state gives its frame too:
what the record update does not name is unchanged. -/

open Sys2Proof
open Sys2Proof.Machine

namespace Sys2Proof.Statements

/-- Each immediate form, with its operand byte v, answers the next state `effect v`. Each memory form reads M once
at its effective address and answers `effect M`; a pointer or the operand that cannot be read is the fault, with
no effect. -/
def ReadForms (immediates : List (Instr × Byte)) (forms : List (Instr × MemMode)) (s : State)
    (effect : Byte → State) : Prop :=
  (∀ p ∈ immediates, exec p.1 s = .next (effect p.2)) ∧
  ∀ p ∈ forms,
    (∀ (a : Word) (m : Byte), ea p.2 s = .ok a → s.bus.read a = .ok m → exec p.1 s = .next (effect m)) ∧
    (∀ f : Fault, ea p.2 s = .error f → exec p.1 s = .fault f) ∧
    (∀ (a : Word) (r : Reason), ea p.2 s = .ok a → s.bus.read a = .error r →
      exec p.1 s = .fault (.busFault r a))

/-- Each form with a memory operand reads M once at its effective address and writes `result M` there once; the
rest of the next state is `flags M`. A pointer, the read or the write that fails is the fault, with no effect. -/
def RmwForms (forms : List (Instr × MemMode)) (s : State) (result : Byte → Byte) (flags : Byte → State) : Prop :=
  ∀ p ∈ forms,
    (∀ (a : Word) (m : Byte) (b : AddressSpace), ea p.2 s = .ok a → s.bus.read a = .ok m →
      s.bus.write a (result m) = .ok b → exec p.1 s = .next { flags m with bus := b }) ∧
    (∀ f : Fault, ea p.2 s = .error f → exec p.1 s = .fault f) ∧
    (∀ (a : Word) (r : Reason), ea p.2 s = .ok a → s.bus.read a = .error r →
      exec p.1 s = .fault (.busFault r a)) ∧
    (∀ (a : Word) (m : Byte) (r : Reason), ea p.2 s = .ok a → s.bus.read a = .ok m →
      s.bus.write a (result m) = .error r → exec p.1 s = .fault (.busFault r a))

/-- The two decimal digits of a BCD byte as a number. -/
def bcdValue (a : Byte) : Nat := a.toNat / 16 * 10 + a.toNat % 16

/-- A number below 100 as a BCD byte. -/
def toBcd (n : Nat) : Byte := BitVec.ofNat 8 (n / 10 * 16 + n % 10)

end Sys2Proof.Statements

open Sys2Proof.Statements

/-- One word of each family, written out from the opcode map and the operand assembly, decodes to the instruction it
stands for, with nothing left over. -/
def Obligations.OpcodeBytesDecodeAsTheMapSays : Prop :=
  ∀ p ∈ ([([0xA9, 0x42], .ldaImm 0x42#8), ([0xB1, 0x86], .ldaIndY 0x86#8), ([0x96, 0xFF], .stxZpY 0xFF#8),
      ([0x9E, 0x00, 0x03], .stzAbsX 0x0300#16), ([0xBA], .tsx), ([0x6D, 0x34, 0x12], .adcAbs 0x1234#16),
      ([0xE9, 0x01], .sbcImm 0x01#8), ([0x89, 0xC0], .bitImm 0xC0#8), ([0x2A], .rolAcc),
      ([0xDE, 0x00, 0x03], .decAbsX 0x0300#16), ([0x37, 0x40], .rmb3 0x40#8), ([0xF7, 0x40], .smb7 0x40#8),
      ([0x08], .php), ([0x58], .cli), ([0xD0, 0xFD], .bne 0xFD#8), ([0x0F, 0x10, 0x05], .bbr0 0x10#8 0x05#8),
      ([0x6C, 0xFF, 0x12], .jmpInd 0x12FF#16), ([0x20, 0x00, 0x10], .jsr 0x1000#16), ([0x00, 0xEA], .brk 0xEA#8),
      ([0xEA], .nop), ([0xDC, 0x34, 0x12], .nopAbsDC 0x1234#16), ([0xCB], .wai), ([0xDB], .stp)] :
      List (List Byte × Instr)),
    decode p.1 = .ok (p.2, [])

/-- For every well-formed instruction, with every operand at every value its encoding admits, decoding its bytes
followed by any bytes gives the instruction back and leaves exactly the bytes that followed. -/
def Obligations.DecodeOfEncodeIsTheInstruction : Prop :=
  ∀ (i : Instr) (rest : List Byte), i.wellFormed = true → decode (encode i ++ rest) = .ok (i, rest)

/-- Whenever bytes decode to an instruction with some bytes left over, the encoding of that instruction followed by
the bytes left over is the bytes that were decoded: each byte sequence has one meaning and no bit of it is
dropped. -/
def Obligations.EncodeOfDecodeIsTheBytes : Prop :=
  ∀ (bytes : List Byte) (i : Instr) (rest : List Byte), decode bytes = .ok (i, rest) → encode i ++ rest = bytes

/-- Each opcode byte has one addressing mode such that, whatever bytes follow it, decoding succeeds, gives an
instruction of that mode whose own encoding begins with that opcode, and consumes exactly the operand bytes of
that mode: the operand bytes choose the operand and nothing else. The decoder is a function of the bytes alone: it
takes no state. -/
def Obligations.EveryOpcodeDecodesToOneInstructionAndMode : Prop :=
  ∀ op : Byte, ∃ mode : AddrMode, ∀ (op1 op2 : Byte) (rest : List Byte), ∃ i : Instr,
    decode (op :: op1 :: op2 :: rest) = .ok (i, (op1 :: op2 :: rest).drop (operandBytes mode)) ∧ addrMode i = mode ∧
      (encode i).head? = some op ∧ instrLength i = opcodeLength op

/-- When the core is Running and the bytes at PC, each address taken mod 65536, decode to a whole instruction, the
step executes that instruction on the state whose PC is past its bytes; if it answers a next state, the step
ends with the interrupt check on that state, unless the instruction stopped the core; a fault ends the step. -/
def Obligations.StepRunsTheDecodedInstruction : Prop :=
  ∀ (s : State) (bytes : List Byte) (i : Instr), s.mode = .running → decode bytes = .ok (i, []) →
    (∀ (k : Nat) (b : Byte), bytes[k]? = some b → readByte (s.PC + BitVec.ofNat 16 k) s = .ok b) →
    step s =
      match exec i { s with PC := s.PC + BitVec.ofNat 16 bytes.length } with
      | .next t => if t.mode = .stopped then .next t else answer (interruptCheck t)
      | .fault f => .fault f
      | .refused r => .refused r

/-- A Running step whose opcode byte cannot be read faults with that read. If the opcode is read and the instruction
has an operand byte that cannot be read, the step faults with that read, the second byte before the third. A byte
the instruction does not have is never read: whatever a read of it would answer, the bytes the instruction does
have decide which instruction the step executes, on the state whose PC is past them. -/
def Obligations.FetchFaultNamesTheFirstUnreadableByte : Prop :=
  ∀ s : State, s.mode = .running →
    (∀ f : Fault, readByte s.PC s = .error f → step s = .fault f) ∧
    ∀ op : Byte, readByte s.PC s = .ok op →
      (∀ f : Fault, 2 ≤ opcodeLength op → readByte (s.PC + 1#16) s = .error f → step s = .fault f) ∧
      (∀ (op1 : Byte) (f : Fault), opcodeLength op = 3 → readByte (s.PC + 1#16) s = .ok op1 →
        readByte (s.PC + 2#16) s = .error f → step s = .fault f) ∧
      (opcodeLength op = 1 → ∃ i : Instr, decode [op] = .ok (i, []) ∧
        step s = finishStep (exec i { s with PC := s.PC + 1#16 })) ∧
      (∀ op1 : Byte, opcodeLength op = 2 → readByte (s.PC + 1#16) s = .ok op1 →
        ∃ i : Instr, decode [op, op1] = .ok (i, []) ∧
          step s = finishStep (exec i { s with PC := s.PC + 2#16 })) ∧
      (∀ op1 op2 : Byte, opcodeLength op = 3 → readByte (s.PC + 1#16) s = .ok op1 →
        readByte (s.PC + 2#16) s = .ok op2 →
        ∃ i : Instr, decode [op, op1, op2] = .ok (i, []) ∧
          step s = finishStep (exec i { s with PC := s.PC + 3#16 }))

/-- In every state, no step answers a refusal, and no instruction does. -/
def Obligations.NoStepIsRefused : Prop :=
  (∀ (s : State) (r : Refusal), step s ≠ .refused r) ∧
    (∀ (i : Instr) (s : State) (r : Refusal), exec i s ≠ .refused r)

/-- Whenever a step faults with a BusFault, the address space as at most six accepted writes leave it (the most a step
makes: the three of a BRK and the three of an interrupt entry) answers the reported reason to a read, or to the
write of some byte, at the reported address; and a fault is always a BusFault. If the address space is the harness
or the Handheld it already gives that answer as it stood before the step: their refusals do not depend on what was
written, which is log entry 4 (DESIGN CHOICE) for the harness and 20_memory.md for the Handheld. -/
def Obligations.EveryFaultIsAnUnimplementedAccess : Prop :=
  ∀ (s : State) (f : Fault), step s = .fault f →
    ∃ (r : Reason) (a : Word), f = .busFault r a ∧
      (∃ (addresses : List Word) (b : AddressSpace), addresses.length ≤ 6 ∧ Written addresses s.bus b ∧
        (b.read a = .error r ∨ ∃ v : Byte, b.write a v = .error r)) ∧
      (s.bus.isExternal = false → s.bus.read a = .error r ∨ ∃ v : Byte, s.bus.write a v = .error r)

/-- When the host is told a fault, the state after the step is the state before it, and another step from it gives
the same fault. -/
def Obligations.FaultedStepHasNoEffect : Prop :=
  ∀ (s : State) (f : Fault), (hostStep s).1 = .fault f →
    (hostStep s).2 = s ∧ hostStep (hostStep s).2 = (.fault f, s)

/-- A Stopped core holds with no change, also after any interrupt request, which sets its pending bit. A Waiting
core with nothing pending holds with no change. A Waiting core with a request pending becomes Running and runs
the interrupt check and nothing else. A reset whose vector can be read leaves any core Running. That step answers
a hold as a next state equal to the state before is the form of log entry 7 (DESIGN CHOICE); hostStep tells the
host that it was a hold. -/
def Obligations.HoldsAreLiftedOnlyAsTheTableSays : Prop :=
  ∀ s : State,
    (s.mode = .stopped → hostStep s = (.hold, s) ∧ step s = .next s ∧
      (∀ k : Interrupt, hostStep (requestInterrupt k s) = (.hold, requestInterrupt k s)) ∧
      (requestInterrupt .nmi s).pendingNmi = true ∧ (requestInterrupt .irq s).pendingIrq = true) ∧
    (s.mode = .waiting → s.pendingNmi = false → s.pendingIrq = false → hostStep s = (.hold, s) ∧ step s = .next s) ∧
    (s.mode = .waiting → s.pendingNmi = true ∨ s.pendingIrq = true →
      step s = answer (interruptCheck { s with mode := .running })) ∧
    (∀ (d : Draws) (lo hi : Byte), s.bus.read 0xFFFC#16 = .ok lo → s.bus.read 0xFFFD#16 = .ok hi →
      ∃ t : State, hostReset d s = .ok t ∧ t.mode = .running)

/-- If a step answers a next state that is Waiting, then in it neither an NMI nor an IRQ is due: WAI does not sleep
through an interrupt that is due. -/
def Obligations.WaitingAfterStepMeansNothingDue : Prop :=
  ∀ s t : State, step s = .next t → t.mode = .waiting →
    ¬(t.pendingNmi = true ∧ ¬(t.params.serviceGate = true ∧ t.inService = true)) ∧
    ¬(t.pendingIrq = true ∧ t.I = false ∧ ¬(t.params.serviceGate = true ∧ t.inService = true))

/-- With gated meaning SERVICE_GATE and in_service, an NMI is due exactly when it is pending and the core is not
gated, an IRQ exactly when it is pending, I is 0 and the core is not gated. The check enters the NMI if it is due,
leaving the IRQ pending as it was; otherwise it enters the IRQ if that is due; otherwise it changes nothing. It
runs once, on the state the instruction left, at the end of every Running step whose instruction neither faulted
nor stopped the core, and once in the step that wakes a Waiting core; a step that faults enters no interrupt. -/
def Obligations.InterruptCheckEntersNmiBeforeIrq : Prop :=
  ∀ s : State,
    (nmiDue s = true ↔ s.pendingNmi = true ∧ ¬(s.params.serviceGate = true ∧ s.inService = true)) ∧
    (irqDue s = true ↔
      s.pendingIrq = true ∧ s.I = false ∧ ¬(s.params.serviceGate = true ∧ s.inService = true)) ∧
    (nmiDue s = true → interruptCheck s = enterInterrupt .nmi s ∧
      ∀ t : State, interruptCheck s = .ok t → t.pendingIrq = s.pendingIrq) ∧
    (nmiDue s = false → irqDue s = true → interruptCheck s = enterInterrupt .irq s) ∧
    (nmiDue s = false → irqDue s = false → interruptCheck s = .ok s) ∧
    (∀ (i : Instr) (next : Word), s.mode = .running → fetch s = .ok (i, next) →
      (∀ t : State, exec i { s with PC := next } = .next t → t.mode ≠ .stopped →
        step s = answer (interruptCheck t)) ∧
      (∀ t : State, exec i { s with PC := next } = .next t → t.mode = .stopped → step s = .next t) ∧
      (∀ f : Fault, exec i { s with PC := next } = .fault f → step s = .fault f)) ∧
    (s.mode = .waiting → s.pendingNmi = true ∨ s.pendingIrq = true →
      step s = answer (interruptCheck { s with mode := .running }))

/-- When the three stack slots accept the writes and the vector can be read, entering an NMI or an IRQ writes PC
high, PC low and the P image with B = 0 at SP, SP - 1 and SP - 2 of the stack page, leaves SP 3 lower mod 256,
sets I, clears D if INTERRUPT_CLEARS_D, sets in_service, clears that request, makes the core Running and loads
PC from the vector read after the pushes; A, X, Y, N, V, Z, C and the other request are unchanged. -/
def Obligations.InterruptEntryStacksPcAndFlagsAndTakesTheVector : Prop :=
  ∀ (s : State) (b1 b2 b3 : AddressSpace) (lo hi : Byte),
    s.bus.write (stackAddr s.SP) (highByte s.PC) = .ok b1 →
    b1.write (stackAddr (s.SP - 1#8)) (lowByte s.PC) = .ok b2 →
    b2.write (stackAddr (s.SP - 2#8)) (pImage false s) = .ok b3 →
    (b3.read 0xFFFA#16 = .ok lo → b3.read 0xFFFB#16 = .ok hi →
      enterInterrupt .nmi s = .ok { s with
        bus := b3, SP := s.SP - 3#8, PC := concat16 hi lo, I := true, D := s.D && !s.params.interruptClearsD,
        inService := true, pendingNmi := false, mode := .running }) ∧
    (b3.read 0xFFFE#16 = .ok lo → b3.read 0xFFFF#16 = .ok hi →
      enterInterrupt .irq s = .ok { s with
        bus := b3, SP := s.SP - 3#8, PC := concat16 hi lo, I := true, D := s.D && !s.params.interruptClearsD,
        inService := true, pendingIrq := false, mode := .running })

/-- For a Running core that is not gated, with a NOP at PC, stack slots that accept the three writes and a readable
NMI vector, a request for an NMI makes the next step push PC past the NOP and the flags with B = 0, set I, clear
the request, set in_service and load PC from 0xFFFA and 0xFFFB, for either value of I. -/
def Obligations.NmiRequestIsTakenWhateverIIs : Prop :=
  ∀ (s : State) (b1 b2 b3 : AddressSpace) (lo hi : Byte), s.mode = .running → s.inService = false →
    s.bus.read s.PC = .ok 0xEA#8 →
    s.bus.write (stackAddr s.SP) (highByte (s.PC + 1#16)) = .ok b1 →
    b1.write (stackAddr (s.SP - 1#8)) (lowByte (s.PC + 1#16)) = .ok b2 →
    b2.write (stackAddr (s.SP - 2#8)) (pImage false s) = .ok b3 →
    b3.read 0xFFFA#16 = .ok lo → b3.read 0xFFFB#16 = .ok hi →
    step (requestInterrupt .nmi s) = .next { s with
      bus := b3, SP := s.SP - 3#8, PC := concat16 hi lo, I := true, D := s.D && !s.params.interruptClearsD,
      inService := true, pendingNmi := false, mode := .running }

/-- If a request is pending before a step and not after it, the step entered that interrupt: in_service and I are
set, the core is Running, and PC is what the kind vector holds. -/
def Obligations.PendingBitIsClearedOnlyByTakingIt : Prop :=
  ∀ s t : State, step s = .next t →
    (s.pendingNmi = true → t.pendingNmi = true ∨
      (t.inService = true ∧ t.I = true ∧ t.mode = .running ∧ read16 0xFFFA#16 t = .ok t.PC)) ∧
    (s.pendingIrq = true → t.pendingIrq = true ∨
      (t.inService = true ∧ t.I = true ∧ t.mode = .running ∧ read16 0xFFFE#16 t = .ok t.PC))

/-- Whenever an instruction answers a next state, in_service in it is 0 if the instruction is RTI and unchanged
otherwise: BRK does not set it, and no other instruction clears it. -/
def Obligations.OnlyRtiClearsInService : Prop :=
  ∀ (i : Instr) (s t : State), exec i s = .next t → t.inService = if i = .rti then false else s.inService

/-- From any state and for any draws, a reset whose vector bytes can be read sets A, X, Y, SP, N, V, Z and C to the
draws, D to 0, I to 1, clears the pending bits and in_service, makes the core Running, loads PC from 0xFFFC and
0xFFFD and leaves the address space as it was. If the low or then the high vector byte cannot be read, it
reports that BusFault, the other assignments stand, PC is a draw and the core is Stopped. -/
def Obligations.ResetLeavesTheResetState : Prop :=
  ∀ (d : Draws) (s : State),
    (∀ lo hi : Byte, s.bus.read 0xFFFC#16 = .ok lo → s.bus.read 0xFFFD#16 = .ok hi →
      hostReset d s = .ok {
        A := d.A, X := d.X, Y := d.Y, SP := d.SP, PC := concat16 hi lo, N := d.N, V := d.V, D := false,
        I := true, Z := d.Z, C := d.C, pendingNmi := false, pendingIrq := false, inService := false,
        mode := .running, bus := s.bus, params := s.params }) ∧
    (∀ (r : Reason) (a : Word),
      (s.bus.read 0xFFFC#16 = .error r ∧ a = 0xFFFC#16) ∨
        ((∃ lo : Byte, s.bus.read 0xFFFC#16 = .ok lo) ∧ s.bus.read 0xFFFD#16 = .error r ∧ a = 0xFFFD#16) →
      hostReset d s = .fault (.busFault r a) {
        A := d.A, X := d.X, Y := d.Y, SP := d.SP, PC := d.PC, N := d.N, V := d.V, D := false, I := true,
        Z := d.Z, C := d.C, pendingNmi := false, pendingIrq := false, inService := false, mode := .stopped,
        bus := s.bus, params := s.params })

/-- The state named reset is a reset, with every draw zero, of the same address space, and meets the invariant; its
D is 0, its I is 1, nothing is pending and it is Running. That the draws are zero and that the address space is
an empty writable harness are the model choices of log entries 1, 2 and 3. -/
def Obligations.ResetStateIsAResetAndWellFormed : Prop :=
  hostReset Draws.zero State.reset = .ok State.reset ∧ State.reset.Inv ∧ State.reset.D = false ∧
    State.reset.I = true ∧ State.reset.pendingNmi = false ∧ State.reset.pendingIrq = false ∧
    State.reset.inService = false ∧ State.reset.mode = .running

/-- Over any address space that reads 00 80 at the reset vector and A9 42 at 0x8000, a reset with any draws leaves PC
0x8000, I 1 and D 0, and one step then reports ok and gives A 0x42, Z 0, N 0 and PC 0x8002, with no interrupt
entered and the address space as it was. -/
def Obligations.FirstLoadAfterResetGivesItsOperand : Prop :=
  ∀ (d : Draws) (s : State),
    s.bus.read 0xFFFC#16 = .ok 0x00#8 → s.bus.read 0xFFFD#16 = .ok 0x80#8 →
    s.bus.read 0x8000#16 = .ok 0xA9#8 → s.bus.read 0x8001#16 = .ok 0x42#8 →
    ∃ t u : State, hostReset d s = .ok t ∧ t.PC = 0x8000#16 ∧ t.I = true ∧ t.D = false ∧
      hostStep t = (.ok, u) ∧ step t = .next u ∧
      u.A = 0x42#8 ∧ u.Z = false ∧ u.N = false ∧ u.PC = 0x8002#16 ∧ u.inService = false ∧ u.bus = s.bus

/-- From every state whose address space data is well formed (the memory canonical and inside the 16-bit space; on
the Handheld OTP_LEN above 0 and both images inside their regions), a step that answers a next state leaves it
well formed. -/
def Obligations.StepKeepsTheInvariant : Prop :=
  ∀ s t : State, s.Inv → step s = .next t → t.Inv

/-- Requesting an NMI or an IRQ sets that pending bit, whatever mode, I and in_service are, changes nothing else,
and a second request of the kind changes nothing. A request keeps the invariant, and so does a reset, whether or
not its vector can be read. -/
def Obligations.RequestsLatchAndHostOperationsKeepTheInvariant : Prop :=
  ∀ s : State,
    requestInterrupt .nmi s = { s with pendingNmi := true } ∧ requestInterrupt .irq s = { s with pendingIrq := true } ∧
    (∀ k : Interrupt, requestInterrupt k (requestInterrupt k s) = requestInterrupt k s) ∧
    (s.Inv → (∀ k : Interrupt, (requestInterrupt k s).Inv) ∧
      ∀ (d : Draws) (t : State), (hostReset d s = .ok t ∨ ∃ f : Fault, hostReset d s = .fault f t) → t.Inv)

/-- Whenever a step answers a next state, the parameters are unchanged and so is which address space is bound: the
Handheld is unchanged altogether, of the harness only the memory may differ, and of an external space only its
state. That the parameters stand in State is log entry 5; that the harness has holes that no write moves, and that
the implementation of an external space stands apart from its state, are log entries 4 and 18 (DESIGN CHOICE all
three). -/
def Obligations.StepNeverChangesParametersOrTheHandheld : Prop :=
  ∀ s t : State, step s = .next t →
    t.params = s.params ∧ (∀ h : Handheld, s.bus = .handheld h → t.bus = .handheld h) ∧
    (∀ h : Harness, s.bus = .harness h → ∃ m : Memory, t.bus = .harness { h with mem := m }) ∧
    (∀ e : External, s.bus = .external e → ∃ c : Nat, t.bus = .external { e with contents := c })

/-- If two address spaces are related by a relation under which every read and every write gets the same answer and
writes keep the relation, then a step over one and a step over the other, from the same core state, give the
same fault, or next states equal in everything but the address space, with the address spaces related. -/
def Obligations.StepIsTheSameOverIndistinguishableAddressSpaces : Prop :=
  ∀ R : AddressSpace → AddressSpace → Prop,
    (∀ m n : AddressSpace, R m n →
      (∀ a : Word, m.read a = n.read a) ∧
      (∀ (a : Word) (v : Byte),
        (∃ m' n' : AddressSpace, m.write a v = .ok m' ∧ n.write a v = .ok n' ∧ R m' n') ∨
        (∃ r : Reason, m.write a v = .error r ∧ n.write a v = .error r))) →
    ∀ (s : State) (m n : AddressSpace), R m n →
      (∃ t u : State, step { s with bus := m } = .next t ∧ step { s with bus := n } = .next u ∧ R t.bus u.bus ∧
        u = { t with bus := u.bus }) ∨
      (∃ f : Fault, step { s with bus := m } = .fault f ∧ step { s with bus := n } = .fault f)

/-- Whenever an instruction answers a next state, every register, flag, in_service, the mode and all of memory that
writesOf does not name for it are unchanged, and the pending bits and the parameters are unchanged. The table
gives N, V, D, I, Z and C exactly as the flag table of 10_state.md does; A, X, Y and SP as sections 2 of that
file; an instruction that stores nothing leaves all of memory as it was. -/
def Obligations.InstructionsKeepWhatTheirTableDoesNotWrite : Prop :=
  ∀ (i : Instr) (s t : State), exec i s = .next t → KeepsTheRest (writesOf i) s t

/-- When one of the two address spaces the spec describes, well formed, accepts a write, the written address, if it
can be read, then reads the byte written, and every other address that can be read reads as before. That an
address that cannot be read keeps its reason, and that the same writes are accepted and refused as before, is the
form of the harness in log entry 4 (DESIGN CHOICE). Of an external space nothing is said: 20_memory.md leaves what a
write does to the address space. -/
def Obligations.ReadAfterWriteGivesTheByteWritten : Prop :=
  ∀ (m m' : AddressSpace) (a : Word) (v : Byte), m.isExternal = false → m.wf = true → m.write a v = .ok m' →
    (∀ b : Word, b ≠ a → m'.read b = m.read b) ∧
    (∀ c : Byte, m.read a = .ok c → m'.read a = .ok v) ∧
    (∀ r : Reason, m.read a = .error r → m'.read a = .error r) ∧
    (∀ (b : Word) (u : Byte) (r : Reason), m'.write b u = .error r ↔ m.write b u = .error r)

/-- A push writes the byte at 0x0100 + SP and leaves SP one lower mod 256; if the write is refused it raises
BusFault at that address. A pull reads at 0x0100 + (SP + 1 mod 256) and leaves SP one higher mod 256; if the
read is refused it raises BusFault at that address. Nothing else changes. -/
def Obligations.StackPrimitivesWriteThenDecrementAndIncrementThenRead : Prop :=
  ∀ (s : State) (v : Byte) (a b : Word), a.toNat = 0x0100 + s.SP.toNat → b.toNat = 0x0100 + (s.SP.toNat + 1) % 256 →
    (∀ m : AddressSpace, s.bus.write a v = .ok m →
      push v s = .ok { s with bus := m, SP := BitVec.ofNat 8 (s.SP.toNat + 255) }) ∧
    (∀ r : Reason, s.bus.write a v = .error r → push v s = .error (.busFault r a)) ∧
    (∀ c : Byte, s.bus.read b = .ok c → pull s = .ok (c, { s with SP := BitVec.ofNat 8 (s.SP.toNat + 1) })) ∧
    (∀ r : Reason, s.bus.read b = .error r → pull s = .error (.busFault r b))

/-- For every store and every memory form of a read-modify-write instruction: if its effective address, computed
before it runs, is a, and it answers a next state, then the address space is what one accepted write at a makes of
it, SP, PC, in_service, the mode, the pending bits and the parameters are unchanged, and, if the address space is
one of the two the spec describes, every address other than a reads as before (what a write to an external space
does to other addresses is its own affair, 20_memory.md section 1.3). -/
def Obligations.StoresChangeOnlyTheByteAtTheirAddress : Prop :=
  ∀ (s t : State) (z : Byte) (w : Word),
    ∀ p ∈ ([(.staIndX z, .indirectX z), (.staZp z, .zeroPage z), (.staAbs w, .absolute w),
       (.staIndY z, .indirectY z), (.staZpInd z, .zeroPageIndirect z), (.staZpX z, .zeroPageX z),
       (.staAbsY w, .absoluteY w), (.staAbsX w, .absoluteX w), (.stxZp z, .zeroPage z),
       (.stxAbs w, .absolute w), (.stxZpY z, .zeroPageY z), (.styZp z, .zeroPage z), (.styAbs w, .absolute w),
       (.styZpX z, .zeroPageX z), (.stzZp z, .zeroPage z), (.stzZpX z, .zeroPageX z), (.stzAbs w, .absolute w),
       (.stzAbsX w, .absoluteX w), (.tsbZp z, .zeroPage z), (.aslZp z, .zeroPage z), (.rmb0 z, .zeroPage z),
       (.tsbAbs w, .absolute w), (.aslAbs w, .absolute w), (.trbZp z, .zeroPage z), (.aslZpX z, .zeroPageX z),
       (.rmb1 z, .zeroPage z), (.trbAbs w, .absolute w), (.aslAbsX w, .absoluteX w), (.rolZp z, .zeroPage z),
       (.rmb2 z, .zeroPage z), (.rolAbs w, .absolute w), (.rolZpX z, .zeroPageX z), (.rmb3 z, .zeroPage z),
       (.rolAbsX w, .absoluteX w), (.lsrZp z, .zeroPage z), (.rmb4 z, .zeroPage z), (.lsrAbs w, .absolute w),
       (.lsrZpX z, .zeroPageX z), (.rmb5 z, .zeroPage z), (.lsrAbsX w, .absoluteX w), (.rorZp z, .zeroPage z),
       (.rmb6 z, .zeroPage z), (.rorAbs w, .absolute w), (.rorZpX z, .zeroPageX z), (.rmb7 z, .zeroPage z),
       (.rorAbsX w, .absoluteX w), (.smb0 z, .zeroPage z), (.smb1 z, .zeroPage z), (.smb2 z, .zeroPage z),
       (.smb3 z, .zeroPage z), (.decZp z, .zeroPage z), (.smb4 z, .zeroPage z), (.decAbs w, .absolute w),
       (.decZpX z, .zeroPageX z), (.smb5 z, .zeroPage z), (.decAbsX w, .absoluteX w), (.incZp z, .zeroPage z),
       (.smb6 z, .zeroPage z), (.incAbs w, .absolute w), (.incZpX z, .zeroPageX z), (.smb7 z, .zeroPage z),
       (.incAbsX w, .absoluteX w)] :
      List (Instr × MemMode)),
    ∀ a : Word, ea p.2 s = .ok a → exec p.1 s = .next t →
      Written [a] s.bus t.bus ∧
        (s.bus.isExternal = false → ∀ b : Word, b ≠ a → readByte b t = readByte b s) ∧
        t.SP = s.SP ∧ t.PC = s.PC ∧ t.inService = s.inService ∧
        t.mode = s.mode ∧ t.pendingNmi = s.pendingNmi ∧ t.pendingIrq = s.pendingIrq ∧ t.params = s.params

/-- Whenever PHA, PHP, PHX or PHY answers a next state, the address space is what one accepted write at the slot at SP
makes of it; for JSR, two, at the slots at SP and SP - 1; for BRK, three, at the slots at SP, SP - 1 and SP - 2; in
that order. If the address space is one of the two the spec describes, every other address reads as before. -/
def Obligations.StackWritersChangeOnlyTheirSlots : Prop :=
  ∀ (s t : State) (w : Word) (v : Byte),
    ∀ p ∈ ([(.pha, [0#8]), (.php, [0#8]), (.phx, [0#8]), (.phy, [0#8]), (.jsr w, [0#8, 1#8]),
      (.brk v, [0#8, 1#8, 2#8])] : List (Instr × List Byte)),
    exec p.1 s = .next t →
      Written (p.2.map fun k => stackAddr (s.SP - k)) s.bus t.bus ∧
      (s.bus.isExternal = false → ∀ a : Word, (∀ k ∈ p.2, a ≠ stackAddr (s.SP - k)) → readByte a t = readByte a s)

/-- The zero-page address is the operand; zero page,X and zero page,Y are taken mod 256; absolute is the operand;
absolute,X and absolute,Y are taken mod 65536. None of them can fail. -/
def Obligations.DirectModesGiveTheirEffectiveAddress : Prop :=
  ∀ (s : State) (z : Byte) (w : Word),
    (∃ a : Word, ea (.zeroPage z) s = .ok a ∧ a.toNat = z.toNat) ∧
    (∃ a : Word, ea (.zeroPageX z) s = .ok a ∧ a.toNat = (z.toNat + s.X.toNat) % 256) ∧
    (∃ a : Word, ea (.zeroPageY z) s = .ok a ∧ a.toNat = (z.toNat + s.Y.toNat) % 256) ∧
    (∃ a : Word, ea (.absolute w) s = .ok a ∧ a.toNat = w.toNat) ∧
    (∃ a : Word, ea (.absoluteX w) s = .ok a ∧ a.toNat = (w.toNat + s.X.toNat) % 65536) ∧
    (∃ a : Word, ea (.absoluteY w) s = .ok a ∧ a.toNat = (w.toNat + s.Y.toNat) % 65536)

/-- With the pointer bytes lo and hi at the addresses p and q: (zp) and (zp),Y read p = zp and q = zp + 1 mod 256;
(zp,X) reads p = zp + X mod 256 and q = p + 1 mod 256; (abs) reads p = abs and (abs,X) reads p = abs + X mod
65536, with q = p + 1 mod 65536. The address is hi * 256 + lo, plus Y mod 65536 for (zp),Y. If p cannot be read
the fault names p; if p can and q cannot, it names q. -/
def Obligations.IndirectModesReadTheirPointer : Prop :=
  ∀ (s : State) (z : Byte) (w : Word), ∀ p ∈ ([(.zeroPageIndirect z, z.toNat, 256, 0),
      (.indirectX z, (z.toNat + s.X.toNat) % 256, 256, 0), (.indirectY z, z.toNat, 256, s.Y.toNat),
      (.indirect w, w.toNat, 65536, 0), (.absoluteIndexedIndirect w, (w.toNat + s.X.toNat) % 65536, 65536, 0)] :
      List (MemMode × Nat × Nat × Nat)),
    ∀ (a b : Word), a.toNat = p.2.1 → b.toNat = (p.2.1 + 1) % p.2.2.1 →
      (∀ lo hi : Byte, s.bus.read a = .ok lo → s.bus.read b = .ok hi →
        ∃ e : Word, ea p.1 s = .ok e ∧ e.toNat = (hi.toNat * 256 + lo.toNat + p.2.2.2) % 65536) ∧
      (∀ r : Reason, s.bus.read a = .error r → ea p.1 s = .error (.busFault r a)) ∧
      (∀ (lo : Byte) (r : Reason), s.bus.read a = .ok lo → s.bus.read b = .error r →
        ea p.1 s = .error (.busFault r b))

/-- Every form of LDA, LDX and LDY, when its operand M can be read, answers the state in which the register is M, N
is bit 7 of M and Z says M = 0, and everything else is as before; when a pointer or the operand cannot be read
it faults with that read. -/
def Obligations.LoadsSetTheirRegisterAndNZ : Prop :=
  ∀ (s : State) (v z : Byte) (w : Word),
    ReadForms [(.ldaImm v, v)]
      [(.ldaIndX z, .indirectX z), (.ldaZp z, .zeroPage z), (.ldaAbs w, .absolute w),
       (.ldaIndY z, .indirectY z), (.ldaZpInd z, .zeroPageIndirect z), (.ldaZpX z, .zeroPageX z),
       (.ldaAbsY w, .absoluteY w), (.ldaAbsX w, .absoluteX w)] s
      (fun m => { s with A := m, N := decide (128 ≤ m.toNat), Z := decide (m.toNat = 0) }) ∧
    ReadForms [(.ldxImm v, v)]
      [(.ldxZp z, .zeroPage z), (.ldxAbs w, .absolute w), (.ldxZpY z, .zeroPageY z), (.ldxAbsY w, .absoluteY w)] s
      (fun m => { s with X := m, N := decide (128 ≤ m.toNat), Z := decide (m.toNat = 0) }) ∧
    ReadForms [(.ldyImm v, v)]
      [(.ldyZp z, .zeroPage z), (.ldyAbs w, .absolute w), (.ldyZpX z, .zeroPageX z), (.ldyAbsX w, .absoluteX w)] s
      (fun m => { s with Y := m, N := decide (128 ≤ m.toNat), Z := decide (m.toNat = 0) })

/-- Every form of STA, STX, STY and STZ, when its effective address is a and the write is accepted, answers the
state whose address space is the one the write of A, X, Y or 0 at a gives, with everything else as before; a
refused write is a BusFault at a, and a pointer that cannot be read is its fault. -/
def Obligations.StoresWriteTheirRegister : Prop :=
  ∀ (s : State) (z : Byte) (w : Word),
    ∀ p ∈ ([(.staIndX z, .indirectX z, s.A), (.staZp z, .zeroPage z, s.A), (.staAbs w, .absolute w, s.A),
       (.staIndY z, .indirectY z, s.A), (.staZpInd z, .zeroPageIndirect z, s.A),
       (.staZpX z, .zeroPageX z, s.A), (.staAbsY w, .absoluteY w, s.A), (.staAbsX w, .absoluteX w, s.A),
       (.stxZp z, .zeroPage z, s.X), (.stxAbs w, .absolute w, s.X), (.stxZpY z, .zeroPageY z, s.X),
       (.styZp z, .zeroPage z, s.Y), (.styAbs w, .absolute w, s.Y), (.styZpX z, .zeroPageX z, s.Y),
       (.stzZp z, .zeroPage z, 0x00#8), (.stzZpX z, .zeroPageX z, 0x00#8), (.stzAbs w, .absolute w, 0x00#8),
       (.stzAbsX w, .absoluteX w, 0x00#8)] :
      List (Instr × MemMode × Byte)),
    (∀ (a : Word) (b : AddressSpace), ea p.2.1 s = .ok a → s.bus.write a p.2.2 = .ok b →
      exec p.1 s = .next { s with bus := b }) ∧
    (∀ (a : Word) (r : Reason), ea p.2.1 s = .ok a → s.bus.write a p.2.2 = .error r →
      exec p.1 s = .fault (.busFault r a)) ∧
    (∀ f : Fault, ea p.2.1 s = .error f → exec p.1 s = .fault f)

/-- TAX, TAY, TXA, TYA and TSX copy the register, set N and Z from it and change nothing else; TXS copies X to SP
and changes nothing else. CLC, CLD, CLI, CLV, SEC, SED and SEI write their one flag to 0 or 1 and change nothing
else. All in every state. -/
def Obligations.TransfersAndFlagInstructionsWriteTheirOneItem : Prop :=
  ∀ s : State,
    exec .tax s = .next { s with X := s.A, N := s.A.getLsbD 7, Z := decide (s.A = 0#8) } ∧
    exec .tay s = .next { s with Y := s.A, N := s.A.getLsbD 7, Z := decide (s.A = 0#8) } ∧
    exec .txa s = .next { s with A := s.X, N := s.X.getLsbD 7, Z := decide (s.X = 0#8) } ∧
    exec .tya s = .next { s with A := s.Y, N := s.Y.getLsbD 7, Z := decide (s.Y = 0#8) } ∧
    exec .tsx s = .next { s with X := s.SP, N := s.SP.getLsbD 7, Z := decide (s.SP = 0#8) } ∧
    exec .txs s = .next { s with SP := s.X } ∧
    exec .clc s = .next { s with C := false } ∧
    exec .cld s = .next { s with D := false } ∧
    exec .cli s = .next { s with I := false } ∧
    exec .clv s = .next { s with V := false } ∧
    exec .sec s = .next { s with C := true } ∧
    exec .sed s = .next { s with D := true } ∧
    exec .sei s = .next { s with I := true }

/-- The result is a + m + c mod 256, the carry says that the sum is 256 or more, and the overflow says exactly that
the signed sum is outside -128 to 127. -/
def Obligations.BinaryAddSumsWithSignedOverflow : Prop :=
  ∀ (a m : Byte) (c : Bool),
    (addBin a m c).result.toNat = (a.toNat + m.toNat + c.toNat) % 256 ∧
    ((addBin a m c).carry = true ↔ 256 ≤ a.toNat + m.toNat + c.toNat) ∧
    ((addBin a m c).overflow = true ↔ a.toInt + m.toInt + c.toNat < -128 ∨ 127 < a.toInt + m.toInt + c.toNat)

/-- With D = 0 every form of ADC, when M can be read, sets A to A + M + C mod 256, C to the unsigned carry, V to the
signed overflow, N and Z from the result, and changes nothing else; an unreadable operand is its fault. -/
def Obligations.AdcBinaryAddsWithCarry : Prop :=
  ∀ (s : State) (v z : Byte) (w : Word), s.D = false →
    ReadForms [(.adcImm v, v)]
      [(.adcIndX z, .indirectX z), (.adcZp z, .zeroPage z), (.adcAbs w, .absolute w),
       (.adcIndY z, .indirectY z), (.adcZpInd z, .zeroPageIndirect z), (.adcZpX z, .zeroPageX z),
       (.adcAbsY w, .absoluteY w), (.adcAbsX w, .absoluteX w)] s
      (fun m => { s with
        A := BitVec.ofNat 8 (s.A.toNat + m.toNat + s.C.toNat),
        C := decide (256 ≤ s.A.toNat + m.toNat + s.C.toNat),
        V := decide (s.A.toInt + m.toInt + s.C.toNat < -128) || decide (127 < s.A.toInt + m.toInt + s.C.toNat),
        N := decide (128 ≤ (s.A.toNat + m.toNat + s.C.toNat) % 256),
        Z := decide ((s.A.toNat + m.toNat + s.C.toNat) % 256 = 0) })

/-- With D = 0 every form of SBC, when M can be read, sets A to A - M - (1 - C) mod 256, C to no borrow, V to the
signed overflow, N and Z from the result, and changes nothing else; an unreadable operand is its fault. -/
def Obligations.SbcBinarySubtractsWithBorrow : Prop :=
  ∀ (s : State) (v z : Byte) (w : Word), s.D = false →
    ReadForms [(.sbcImm v, v)]
      [(.sbcIndX z, .indirectX z), (.sbcZp z, .zeroPage z), (.sbcAbs w, .absolute w),
       (.sbcIndY z, .indirectY z), (.sbcZpInd z, .zeroPageIndirect z), (.sbcZpX z, .zeroPageX z),
       (.sbcAbsY w, .absoluteY w), (.sbcAbsX w, .absoluteX w)] s
      (fun m => { s with
        A := BitVec.ofInt 8 ((s.A.toNat : Int) - m.toNat - (1 - s.C.toNat)),
        C := decide (m.toNat + (1 - s.C.toNat) ≤ s.A.toNat),
        V := decide (s.A.toInt - m.toInt - (1 - s.C.toNat) < -128) || decide (127 < s.A.toInt - m.toInt - (1 - s.C.toNat)),
        N := (BitVec.ofInt 8 ((s.A.toNat : Int) - m.toNat - (1 - s.C.toNat))).getLsbD 7,
        Z := decide (BitVec.ofInt 8 ((s.A.toNat : Int) - m.toNat - (1 - s.C.toNat)) = 0#8) })

/-- With D = 1 and an operand M that can be read, every form of ADC sets A, for BCD operands, to the two low decimal
digits of A + M + C and C to the hundreds digit, and for other operands A and C to the parameter DecimalNonBcd;
V is the parameter DecimalV, N and Z come from the result, and nothing else changes; an unreadable operand is its
fault. It holds for every value of the two parameters. -/
def Obligations.AdcDecimalIsBcdAddition : Prop :=
  ∀ (s : State) (v z : Byte) (w : Word), s.D = true →
    ReadForms [(.adcImm v, v)]
      [(.adcIndX z, .indirectX z), (.adcZp z, .zeroPage z), (.adcAbs w, .absolute w), (.adcIndY z, .indirectY z),
       (.adcZpInd z, .zeroPageIndirect z), (.adcZpX z, .zeroPageX z), (.adcAbsY w, .absoluteY w),
       (.adcAbsX w, .absoluteX w)] s
      (fun m =>
        if isBcd s.A = true ∧ isBcd m = true then { s with
          A := toBcd ((bcdValue s.A + bcdValue m + s.C.toNat) % 100),
          C := decide (100 ≤ bcdValue s.A + bcdValue m + s.C.toNat),
          V := decimalV s.params.decimal .adc s.A m s.C,
          N := (toBcd ((bcdValue s.A + bcdValue m + s.C.toNat) % 100)).getLsbD 7,
          Z := decide ((bcdValue s.A + bcdValue m + s.C.toNat) % 100 = 0) }
        else { s with
          A := (decimalNonBcd s.params.decimal .adc s.A m s.C).1,
          C := (decimalNonBcd s.params.decimal .adc s.A m s.C).2,
          V := decimalV s.params.decimal .adc s.A m s.C,
          N := (decimalNonBcd s.params.decimal .adc s.A m s.C).1.getLsbD 7,
          Z := decide ((decimalNonBcd s.params.decimal .adc s.A m s.C).1 = 0#8) })

/-- With D = 1 and an operand M that can be read, every form of SBC sets A, for BCD operands, to A - M - (1 - C) mod
100 in BCD and C to 0 exactly when the true difference is negative, and for other operands A and C to the
parameter DecimalNonBcd; V is the parameter DecimalV, N and Z come from the result, and nothing else changes; an
unreadable operand is its fault. It holds for every value of the two parameters. -/
def Obligations.SbcDecimalIsBcdSubtraction : Prop :=
  ∀ (s : State) (v z : Byte) (w : Word), s.D = true →
    ReadForms [(.sbcImm v, v)]
      [(.sbcIndX z, .indirectX z), (.sbcZp z, .zeroPage z), (.sbcAbs w, .absolute w), (.sbcIndY z, .indirectY z),
       (.sbcZpInd z, .zeroPageIndirect z), (.sbcZpX z, .zeroPageX z), (.sbcAbsY w, .absoluteY w),
       (.sbcAbsX w, .absoluteX w)] s
      (fun m =>
        if isBcd s.A = true ∧ isBcd m = true then { s with
          A := toBcd ((100 + bcdValue s.A - bcdValue m - (1 - s.C.toNat)) % 100),
          C := decide (bcdValue m + (1 - s.C.toNat) ≤ bcdValue s.A),
          V := decimalV s.params.decimal .sbc s.A m s.C,
          N := (toBcd ((100 + bcdValue s.A - bcdValue m - (1 - s.C.toNat)) % 100)).getLsbD 7,
          Z := decide ((100 + bcdValue s.A - bcdValue m - (1 - s.C.toNat)) % 100 = 0) }
        else { s with
          A := (decimalNonBcd s.params.decimal .sbc s.A m s.C).1,
          C := (decimalNonBcd s.params.decimal .sbc s.A m s.C).2,
          V := decimalV s.params.decimal .sbc s.A m s.C,
          N := (decimalNonBcd s.params.decimal .sbc s.A m s.C).1.getLsbD 7,
          Z := decide ((decimalNonBcd s.params.decimal .sbc s.A m s.C).1 = 0#8) })

/-- Every form of AND, ORA and EOR, when M can be read, sets A to the bitwise and, or, exclusive or of A and M, sets
N and Z from it and changes nothing else, whatever D is; an unreadable operand is its fault. -/
def Obligations.LogicCombinesWithA : Prop :=
  ∀ (s : State) (v z : Byte) (w : Word),
    ReadForms [(.andImm v, v)]
      [(.andIndX z, .indirectX z), (.andZp z, .zeroPage z), (.andAbs w, .absolute w),
       (.andIndY z, .indirectY z), (.andZpInd z, .zeroPageIndirect z), (.andZpX z, .zeroPageX z),
       (.andAbsY w, .absoluteY w), (.andAbsX w, .absoluteX w)] s
      (fun m => { s with A := s.A &&& m, N := (s.A &&& m).getLsbD 7, Z := decide (s.A &&& m = 0#8) }) ∧
    ReadForms [(.oraImm v, v)]
      [(.oraIndX z, .indirectX z), (.oraZp z, .zeroPage z), (.oraAbs w, .absolute w),
       (.oraIndY z, .indirectY z), (.oraZpInd z, .zeroPageIndirect z), (.oraZpX z, .zeroPageX z),
       (.oraAbsY w, .absoluteY w), (.oraAbsX w, .absoluteX w)] s
      (fun m => { s with A := s.A ||| m, N := (s.A ||| m).getLsbD 7, Z := decide (s.A ||| m = 0#8) }) ∧
    ReadForms [(.eorImm v, v)]
      [(.eorIndX z, .indirectX z), (.eorZp z, .zeroPage z), (.eorAbs w, .absolute w),
       (.eorIndY z, .indirectY z), (.eorZpInd z, .zeroPageIndirect z), (.eorZpX z, .zeroPageX z),
       (.eorAbsY w, .absoluteY w), (.eorAbsX w, .absoluteX w)] s
      (fun m => { s with A := s.A ^^^ m, N := (s.A ^^^ m).getLsbD 7, Z := decide (s.A ^^^ m = 0#8) })

/-- Every form of CMP, CPX and CPY, when M can be read, sets C when the register is at least M unsigned, Z when they
are equal, N to bit 7 of the difference mod 256, and changes nothing else, whatever D is; an unreadable operand
is its fault. -/
def Obligations.ComparesSetCarryZeroNegative : Prop :=
  ∀ (s : State) (v z : Byte) (w : Word),
    ReadForms [(.cmpImm v, v)]
      [(.cmpIndX z, .indirectX z), (.cmpZp z, .zeroPage z), (.cmpAbs w, .absolute w),
       (.cmpIndY z, .indirectY z), (.cmpZpInd z, .zeroPageIndirect z), (.cmpZpX z, .zeroPageX z),
       (.cmpAbsY w, .absoluteY w), (.cmpAbsX w, .absoluteX w)] s
      (fun m => { s with
        C := decide (m.toNat ≤ s.A.toNat), Z := decide (s.A = m),
        N := decide (128 ≤ (s.A.toNat + 256 - m.toNat) % 256) }) ∧
    ReadForms [(.cpxImm v, v)]
      [(.cpxZp z, .zeroPage z), (.cpxAbs w, .absolute w)] s
      (fun m => { s with
        C := decide (m.toNat ≤ s.X.toNat), Z := decide (s.X = m),
        N := decide (128 ≤ (s.X.toNat + 256 - m.toNat) % 256) }) ∧
    ReadForms [(.cpyImm v, v)]
      [(.cpyZp z, .zeroPage z), (.cpyAbs w, .absolute w)] s
      (fun m => { s with
        C := decide (m.toNat ≤ s.Y.toNat), Z := decide (s.Y = m),
        N := decide (128 ≤ (s.Y.toNat + 256 - m.toNat) % 256) })

/-- Every memory form of BIT, when M can be read, sets Z from A & M, N to bit 7 and V to bit 6 of M; BIT immediate
sets Z alone; nothing else changes; an unreadable operand is its fault. -/
def Obligations.BitTestsAgainstA : Prop :=
  ∀ (s : State) (v z : Byte) (w : Word),
    ReadForms []
      [(.bitZp z, .zeroPage z), (.bitAbs w, .absolute w), (.bitZpX z, .zeroPageX z), (.bitAbsX w, .absoluteX w)] s
      (fun m => { s with Z := decide (s.A &&& m = 0#8), N := m.getLsbD 7, V := m.getLsbD 6 }) ∧
    ReadForms [(.bitImm v, v)] [] s
      (fun m => { s with Z := decide (s.A &&& m = 0#8) })

/-- On A and in every memory form: ASL gives M * 2 mod 256 with bit 7 in C; LSR gives M div 2 with bit 0 in C; ROL
gives M * 2 + C mod 256 with bit 7 in C; ROR gives M div 2 + C * 128 with bit 0 in C. N and Z come from the
result; nothing else changes but A or the byte at the effective address. A read or write that fails is the
fault, with no effect. -/
def Obligations.ShiftsAndRotatesMoveOneBit : Prop :=
  ∀ (s : State) (z : Byte) (w : Word),
    RmwForms
      [(.aslZp z, .zeroPage z), (.aslAbs w, .absolute w), (.aslZpX z, .zeroPageX z), (.aslAbsX w, .absoluteX w)] s
      (fun m => BitVec.ofNat 8 (m.toNat * 2))
      (fun m => { s with N := (BitVec.ofNat 8 (m.toNat * 2)).getLsbD 7,
                          Z := decide (BitVec.ofNat 8 (m.toNat * 2) = 0#8),
                          C := decide (128 ≤ m.toNat) }) ∧
    exec .aslAcc s = .next { s with
      A := BitVec.ofNat 8 (s.A.toNat * 2), N := (BitVec.ofNat 8 (s.A.toNat * 2)).getLsbD 7,
      Z := decide (BitVec.ofNat 8 (s.A.toNat * 2) = 0#8), C := decide (128 ≤ s.A.toNat) } ∧
    RmwForms
      [(.lsrZp z, .zeroPage z), (.lsrAbs w, .absolute w), (.lsrZpX z, .zeroPageX z), (.lsrAbsX w, .absoluteX w)] s
      (fun m => BitVec.ofNat 8 (m.toNat / 2))
      (fun m => { s with N := (BitVec.ofNat 8 (m.toNat / 2)).getLsbD 7,
                          Z := decide (BitVec.ofNat 8 (m.toNat / 2) = 0#8),
                          C := decide (m.toNat % 2 = 1) }) ∧
    exec .lsrAcc s = .next { s with
      A := BitVec.ofNat 8 (s.A.toNat / 2), N := (BitVec.ofNat 8 (s.A.toNat / 2)).getLsbD 7,
      Z := decide (BitVec.ofNat 8 (s.A.toNat / 2) = 0#8), C := decide (s.A.toNat % 2 = 1) } ∧
    RmwForms
      [(.rolZp z, .zeroPage z), (.rolAbs w, .absolute w), (.rolZpX z, .zeroPageX z), (.rolAbsX w, .absoluteX w)] s
      (fun m => BitVec.ofNat 8 (m.toNat * 2 + s.C.toNat))
      (fun m => { s with N := (BitVec.ofNat 8 (m.toNat * 2 + s.C.toNat)).getLsbD 7,
                          Z := decide (BitVec.ofNat 8 (m.toNat * 2 + s.C.toNat) = 0#8),
                          C := decide (128 ≤ m.toNat) }) ∧
    exec .rolAcc s = .next { s with
      A := BitVec.ofNat 8 (s.A.toNat * 2 + s.C.toNat),
      N := (BitVec.ofNat 8 (s.A.toNat * 2 + s.C.toNat)).getLsbD 7,
      Z := decide (BitVec.ofNat 8 (s.A.toNat * 2 + s.C.toNat) = 0#8), C := decide (128 ≤ s.A.toNat) } ∧
    RmwForms
      [(.rorZp z, .zeroPage z), (.rorAbs w, .absolute w), (.rorZpX z, .zeroPageX z), (.rorAbsX w, .absoluteX w)] s
      (fun m => BitVec.ofNat 8 (m.toNat / 2 + s.C.toNat * 128))
      (fun m => { s with N := (BitVec.ofNat 8 (m.toNat / 2 + s.C.toNat * 128)).getLsbD 7,
                          Z := decide (BitVec.ofNat 8 (m.toNat / 2 + s.C.toNat * 128) = 0#8),
                          C := decide (m.toNat % 2 = 1) }) ∧
    exec .rorAcc s = .next { s with
      A := BitVec.ofNat 8 (s.A.toNat / 2 + s.C.toNat * 128),
      N := (BitVec.ofNat 8 (s.A.toNat / 2 + s.C.toNat * 128)).getLsbD 7,
      Z := decide (BitVec.ofNat 8 (s.A.toNat / 2 + s.C.toNat * 128) = 0#8), C := decide (s.A.toNat % 2 = 1) }

/-- On A and in every memory form INC gives M + 1 mod 256 and DEC gives M - 1 mod 256; INX, INY, DEX and DEY do the
same to X and Y. N and Z come from the result, and nothing else changes, in particular not C or V. A read or
write that fails is the fault, with no effect. -/
def Obligations.IncrementsAndDecrementsWrap : Prop :=
  ∀ (s : State) (z : Byte) (w : Word),
    RmwForms
      [(.incZp z, .zeroPage z), (.incAbs w, .absolute w), (.incZpX z, .zeroPageX z), (.incAbsX w, .absoluteX w)] s
      (fun m => BitVec.ofNat 8 (m.toNat + 1))
      (fun m => { s with N := (BitVec.ofNat 8 (m.toNat + 1)).getLsbD 7,
                          Z := decide (BitVec.ofNat 8 (m.toNat + 1) = 0#8) }) ∧
    exec .incAcc s = .next { s with
      A := BitVec.ofNat 8 (s.A.toNat + 1), N := (BitVec.ofNat 8 (s.A.toNat + 1)).getLsbD 7,
      Z := decide (BitVec.ofNat 8 (s.A.toNat + 1) = 0#8) } ∧
    RmwForms
      [(.decZp z, .zeroPage z), (.decAbs w, .absolute w), (.decZpX z, .zeroPageX z), (.decAbsX w, .absoluteX w)] s
      (fun m => BitVec.ofNat 8 (m.toNat + 255))
      (fun m => { s with N := (BitVec.ofNat 8 (m.toNat + 255)).getLsbD 7,
                          Z := decide (BitVec.ofNat 8 (m.toNat + 255) = 0#8) }) ∧
    exec .decAcc s = .next { s with
      A := BitVec.ofNat 8 (s.A.toNat + 255), N := (BitVec.ofNat 8 (s.A.toNat + 255)).getLsbD 7,
      Z := decide (BitVec.ofNat 8 (s.A.toNat + 255) = 0#8) } ∧
    exec .inx s = .next { s with
      X := BitVec.ofNat 8 (s.X.toNat + 1), N := (BitVec.ofNat 8 (s.X.toNat + 1)).getLsbD 7,
      Z := decide (BitVec.ofNat 8 (s.X.toNat + 1) = 0#8) } ∧
    exec .iny s = .next { s with
      Y := BitVec.ofNat 8 (s.Y.toNat + 1), N := (BitVec.ofNat 8 (s.Y.toNat + 1)).getLsbD 7,
      Z := decide (BitVec.ofNat 8 (s.Y.toNat + 1) = 0#8) } ∧
    exec .dex s = .next { s with
      X := BitVec.ofNat 8 (s.X.toNat + 255), N := (BitVec.ofNat 8 (s.X.toNat + 255)).getLsbD 7,
      Z := decide (BitVec.ofNat 8 (s.X.toNat + 255) = 0#8) } ∧
    exec .dey s = .next { s with
      Y := BitVec.ofNat 8 (s.Y.toNat + 255), N := (BitVec.ofNat 8 (s.Y.toNat + 255)).getLsbD 7,
      Z := decide (BitVec.ofNat 8 (s.Y.toNat + 255) = 0#8) }

/-- RMBn, when the zero-page byte M can be read and the write is accepted, writes M with bit n 0 and every other bit
kept; SMBn writes it with bit n 1; no register and no flag changes. In both modes TSB writes M | A and TRB
writes M & ~A at the effective address, Z says that A & M before the write is 0, and nothing else changes. A
read or write that fails is the fault, with no effect. -/
def Obligations.BitsOfMemoryAreSetAndReset : Prop :=
  ∀ (s : State) (z : Byte) (w : Word),
    RmwForms
      [(.tsbZp z, .zeroPage z), (.tsbAbs w, .absolute w)] s (fun m => m ||| s.A)
      (fun m => { s with Z := decide (s.A &&& m = 0#8) }) ∧
    RmwForms
      [(.trbZp z, .zeroPage z), (.trbAbs w, .absolute w)] s (fun m => m &&& ~~~s.A)
      (fun m => { s with Z := decide (s.A &&& m = 0#8) }) ∧
    ∀ p ∈ ([(.rmb0 z, 0, false), (.rmb1 z, 1, false), (.rmb2 z, 2, false), (.rmb3 z, 3, false), (.rmb4 z, 4, false),
       (.rmb5 z, 5, false), (.rmb6 z, 6, false), (.rmb7 z, 7, false), (.smb0 z, 0, true), (.smb1 z, 1, true),
       (.smb2 z, 2, true), (.smb3 z, 3, true), (.smb4 z, 4, true), (.smb5 z, 5, true), (.smb6 z, 6, true),
       (.smb7 z, 7, true)] : List (Instr × Nat × Bool)),
    ∀ a : Word, a.toNat = z.toNat →
      (∀ m : Byte, s.bus.read a = .ok m →
        ∃ r : Byte, (∀ k : Nat, k < 8 → r.getLsbD k = if k = p.2.1 then p.2.2 else m.getLsbD k) ∧
          (∀ b : AddressSpace, s.bus.write a r = .ok b → exec p.1 s = .next { s with bus := b }) ∧
          (∀ q : Reason, s.bus.write a r = .error q → exec p.1 s = .fault (.busFault q a))) ∧
      (∀ q : Reason, s.bus.read a = .error q → exec p.1 s = .fault (.busFault q a))

/-- PHA, PHX, PHY and PHP, when the stack slot at 0x0100 + SP accepts the write, write A, X, Y or the P image with B
= 1 there and leave SP one lower mod 256; nothing else changes. A refused write is a BusFault at the slot. -/
def Obligations.PushesStoreTheirRegister : Prop :=
  ∀ (s : State) (a : Word), a.toNat = 0x0100 + s.SP.toNat → ∀ p ∈ ([(.pha, s.A), (.phx, s.X), (.phy, s.Y),
      (.php, pImage true s)] : List (Instr × Byte)),
    (∀ b : AddressSpace, s.bus.write a p.2 = .ok b →
      exec p.1 s = .next { s with bus := b, SP := BitVec.ofNat 8 (s.SP.toNat + 255) }) ∧
    (∀ r : Reason, s.bus.write a p.2 = .error r → exec p.1 s = .fault (.busFault r a))

/-- The image with break bit b has N, V, D, I, Z and C at bits 7, 6, 3, 2, 1 and 0, b at bit 4 and 1 at bit 5.
Loading a byte sets the six flags from bits 7, 6, 3, 2, 1 and 0 and nothing else. -/
def Obligations.PImageBitsAreTheFlags : Prop :=
  (∀ (s : State) (b : Bool), (pImage b s).getLsbD 7 = s.N ∧ (pImage b s).getLsbD 6 = s.V ∧
      (pImage b s).getLsbD 5 = true ∧ (pImage b s).getLsbD 4 = b ∧ (pImage b s).getLsbD 3 = s.D ∧
      (pImage b s).getLsbD 2 = s.I ∧ (pImage b s).getLsbD 1 = s.Z ∧ (pImage b s).getLsbD 0 = s.C) ∧
    (∀ (s : State) (p : Byte), loadFlags p s = { s with
      N := p.getLsbD 7, V := p.getLsbD 6, D := p.getLsbD 3, I := p.getLsbD 2, Z := p.getLsbD 1,
      C := p.getLsbD 0 })

/-- With SP incremented mod 256 first, PLA, PLX and PLY load the byte at 0x0100 + SP into the register and set N and
Z from it; PLP loads the six flags from it and ignores bits 5 and 4; nothing else changes. A refused read is a
BusFault at that slot. -/
def Obligations.PullsLoadTheirRegister : Prop :=
  ∀ (s : State) (a : Word), a.toNat = 0x0100 + (s.SP.toNat + 1) % 256 →
    (∀ c : Byte, s.bus.read a = .ok c →
      exec .pla s = .next { s with
        SP := BitVec.ofNat 8 (s.SP.toNat + 1), A := c, N := c.getLsbD 7, Z := decide (c = 0#8) } ∧
      exec .plx s = .next { s with
        SP := BitVec.ofNat 8 (s.SP.toNat + 1), X := c, N := c.getLsbD 7, Z := decide (c = 0#8) } ∧
      exec .ply s = .next { s with
        SP := BitVec.ofNat 8 (s.SP.toNat + 1), Y := c, N := c.getLsbD 7, Z := decide (c = 0#8) } ∧
      exec .plp s = .next { s with
        SP := BitVec.ofNat 8 (s.SP.toNat + 1), N := c.getLsbD 7, V := c.getLsbD 6, D := c.getLsbD 3,
        I := c.getLsbD 2, Z := c.getLsbD 1, C := c.getLsbD 0 }) ∧
    (∀ r : Reason, s.bus.read a = .error r → ∀ i ∈ ([.pla, .plx, .ply, .plp] : List Instr),
      exec i s = .fault (.busFault r a))

/-- For each relative branch, run on the state whose PC is next: if its condition holds the next state has PC
congruent to next plus the signed offset mod 65536 and is otherwise unchanged; if not, the state is unchanged. -/
def Obligations.BranchesAddTheSignedOffset : Prop :=
  ∀ (s : State) (r : Byte),
    ∀ p ∈ ([(.bpl r, !s.N), (.bmi r, s.N), (.bvc r, !s.V), (.bvs r, s.V), (.bcc r, !s.C), (.bcs r, s.C),
       (.bne r, !s.Z), (.beq r, s.Z), (.bra r, true)] :
      List (Instr × Bool)),
    exec p.1 s = .next (if p.2 then { s with PC := BitVec.ofInt 16 ((s.PC.toNat : Int) + r.toInt) } else s)

/-- BBRn and BBSn, when the zero-page byte can be read, branch from next by the signed offset mod 65536 if bit n of
it is 0, respectively 1, and leave PC at next otherwise; nothing else changes. A byte that cannot be read is a
BusFault at its address. -/
def Obligations.BitBranchesTestOneZeroPageBit : Prop :=
  ∀ (s : State) (z r : Byte),
    ∀ p ∈ ([(.bbr0 z r, 0, false), (.bbr1 z r, 1, false), (.bbr2 z r, 2, false), (.bbr3 z r, 3, false),
       (.bbr4 z r, 4, false), (.bbr5 z r, 5, false), (.bbr6 z r, 6, false), (.bbr7 z r, 7, false),
       (.bbs0 z r, 0, true), (.bbs1 z r, 1, true), (.bbs2 z r, 2, true), (.bbs3 z r, 3, true),
       (.bbs4 z r, 4, true), (.bbs5 z r, 5, true), (.bbs6 z r, 6, true), (.bbs7 z r, 7, true)] :
      List (Instr × Nat × Bool)),
    ∀ a : Word, a.toNat = z.toNat →
      (∀ m : Byte, s.bus.read a = .ok m → exec p.1 s = .next (if m.getLsbD p.2.1 = p.2.2 then
        { s with PC := BitVec.ofInt 16 ((s.PC.toNat : Int) + r.toInt) } else s)) ∧
      (∀ q : Reason, s.bus.read a = .error q → exec p.1 s = .fault (.busFault q a))

/-- JMP absolute sets PC to its operand; JMP (absolute) and JMP (absolute,X) set PC to the word read at the operand,
respectively the operand plus X mod 65536, when both pointer bytes can be read; a pointer byte that cannot is
its fault. Nothing else changes. -/
def Obligations.JumpsSetPcToTheirAddress : Prop :=
  ∀ (s : State) (w : Word),
    exec (.jmpAbs w) s = .next { s with PC := w } ∧
    (∀ target : Word, read16 w s = .ok target → exec (.jmpInd w) s = .next { s with PC := target }) ∧
    (∀ target : Word, read16 (w + zext16 s.X) s = .ok target →
      exec (.jmpAbsIndX w) s = .next { s with PC := target }) ∧
    (∀ f : Fault, (read16 w s = .error f → exec (.jmpInd w) s = .fault f) ∧
      (read16 (w + zext16 s.X) s = .error f → exec (.jmpAbsIndX w) s = .fault f))

/-- JSR, run on the state whose PC is next, when both stack slots accept the writes, writes the high byte of next -
1 at 0x0100 + SP and the low byte at the slot below, leaves SP two lower mod 256 and PC at the target; nothing
else changes. The first refused write is a BusFault at its slot. -/
def Obligations.JsrStacksNextMinusOne : Prop :=
  ∀ (s : State) (w ret : Word), ret.toNat = (s.PC.toNat + 65535) % 65536 →
    (∀ b1 b2 : AddressSpace, s.bus.write (stackAddr s.SP) (highByte ret) = .ok b1 →
      b1.write (stackAddr (s.SP - 1#8)) (lowByte ret) = .ok b2 →
      exec (.jsr w) s = .next { s with bus := b2, SP := s.SP - 2#8, PC := w }) ∧
    (∀ r : Reason, s.bus.write (stackAddr s.SP) (highByte ret) = .error r →
      exec (.jsr w) s = .fault (.busFault r (stackAddr s.SP))) ∧
    (∀ (b1 : AddressSpace) (r : Reason), s.bus.write (stackAddr s.SP) (highByte ret) = .ok b1 →
      b1.write (stackAddr (s.SP - 1#8)) (lowByte ret) = .error r →
      exec (.jsr w) s = .fault (.busFault r (stackAddr (s.SP - 1#8))))

/-- RTS, when both stack slots can be read, sets PC to the pulled address plus 1 mod 65536 and SP two higher mod
256, and changes nothing else; a slot that cannot be read is a BusFault at it, the low byte first. -/
def Obligations.RtsReturnsToThePulledAddressPlusOne : Prop :=
  ∀ (s : State) (lo hi : Byte) (r : Reason),
    (s.bus.read (stackAddr (s.SP + 1#8)) = .ok lo → s.bus.read (stackAddr (s.SP + 2#8)) = .ok hi →
      exec .rts s = .next { s with SP := s.SP + 2#8, PC := BitVec.ofNat 16 (hi.toNat * 256 + lo.toNat + 1) }) ∧
    (s.bus.read (stackAddr (s.SP + 1#8)) = .error r →
      exec .rts s = .fault (.busFault r (stackAddr (s.SP + 1#8)))) ∧
    (s.bus.read (stackAddr (s.SP + 1#8)) = .ok lo → s.bus.read (stackAddr (s.SP + 2#8)) = .error r →
      exec .rts s = .fault (.busFault r (stackAddr (s.SP + 2#8))))

/-- RTI, when the three stack slots can be read, loads the six flags from the first byte, ignoring its bits 5 and 4,
sets PC to the word the next two hold, low byte first, sets SP three higher mod 256 and in_service to 0, and
changes nothing else. The first slot that cannot be read is a BusFault at it. -/
def Obligations.RtiRestoresFlagsAndPcAndEndsService : Prop :=
  ∀ (s : State) (p lo hi : Byte) (r : Reason),
    (s.bus.read (stackAddr (s.SP + 1#8)) = .ok p → s.bus.read (stackAddr (s.SP + 2#8)) = .ok lo →
      s.bus.read (stackAddr (s.SP + 3#8)) = .ok hi →
      exec .rti s = .next { s with
        SP := s.SP + 3#8, PC := BitVec.ofNat 16 (hi.toNat * 256 + lo.toNat), N := p.getLsbD 7,
        V := p.getLsbD 6, D := p.getLsbD 3, I := p.getLsbD 2, Z := p.getLsbD 1, C := p.getLsbD 0,
        inService := false }) ∧
    (s.bus.read (stackAddr (s.SP + 1#8)) = .error r →
      exec .rti s = .fault (.busFault r (stackAddr (s.SP + 1#8)))) ∧
    (s.bus.read (stackAddr (s.SP + 1#8)) = .ok p → s.bus.read (stackAddr (s.SP + 2#8)) = .error r →
      exec .rti s = .fault (.busFault r (stackAddr (s.SP + 2#8)))) ∧
    (s.bus.read (stackAddr (s.SP + 1#8)) = .ok p → s.bus.read (stackAddr (s.SP + 2#8)) = .ok lo →
      s.bus.read (stackAddr (s.SP + 3#8)) = .error r →
      exec .rti s = .fault (.busFault r (stackAddr (s.SP + 3#8))))

/-- BRK, run on the state whose PC is next, whatever I is and whatever its signature byte is, when the three stack
slots accept the writes and the vector can be read, writes PC high, PC low and the P image with B = 1 at SP, SP
- 1 and SP - 2, leaves SP three lower mod 256, sets I, clears D if INTERRUPT_CLEARS_D and loads PC from 0xFFFE
and 0xFFFF; in_service, the pending bits and everything else are unchanged. The first push that is refused, or a
vector byte that cannot be read, is its fault. -/
def Obligations.BrkStacksItsFrameAndTakesTheIrqVector : Prop :=
  ∀ (s : State) (signature : Byte),
    (∀ (b1 b2 b3 : AddressSpace),
      s.bus.write (stackAddr s.SP) (highByte s.PC) = .ok b1 →
      b1.write (stackAddr (s.SP - 1#8)) (lowByte s.PC) = .ok b2 →
      b2.write (stackAddr (s.SP - 2#8)) (pImage true s) = .ok b3 →
      (∀ lo hi : Byte, b3.read 0xFFFE#16 = .ok lo → b3.read 0xFFFF#16 = .ok hi →
        exec (.brk signature) s = .next { s with
          bus := b3, SP := s.SP - 3#8, PC := concat16 hi lo, I := true,
          D := s.D && !s.params.interruptClearsD }) ∧
      (∀ r : Reason, b3.read 0xFFFE#16 = .error r →
        exec (.brk signature) s = .fault (.busFault r 0xFFFE#16)) ∧
      (∀ (lo : Byte) (r : Reason), b3.read 0xFFFE#16 = .ok lo → b3.read 0xFFFF#16 = .error r →
        exec (.brk signature) s = .fault (.busFault r 0xFFFF#16))) ∧
    (∀ r : Reason, s.bus.write (stackAddr s.SP) (highByte s.PC) = .error r →
      exec (.brk signature) s = .fault (.busFault r (stackAddr s.SP))) ∧
    (∀ (b1 : AddressSpace) (r : Reason), s.bus.write (stackAddr s.SP) (highByte s.PC) = .ok b1 →
      b1.write (stackAddr (s.SP - 1#8)) (lowByte s.PC) = .error r →
      exec (.brk signature) s = .fault (.busFault r (stackAddr (s.SP - 1#8)))) ∧
    (∀ (b1 b2 : AddressSpace) (r : Reason), s.bus.write (stackAddr s.SP) (highByte s.PC) = .ok b1 →
      b1.write (stackAddr (s.SP - 1#8)) (lowByte s.PC) = .ok b2 →
      b2.write (stackAddr (s.SP - 2#8)) (pImage true s) = .error r →
      exec (.brk signature) s = .fault (.busFault r (stackAddr (s.SP - 2#8))))

/-- NOP and every reserved opcode, in every state and with every operand, answer the state they are given: beyond
the PC the step has set to next, no register, flag or byte of memory changes and no data is read. WAI answers
the state with mode Waiting and STP the state with mode Stopped, everything else unchanged. -/
def Obligations.NoOperationsChangeNothingAndWaiStpSetTheMode : Prop :=
  ∀ (s : State) (v z : Byte) (w : Word),
    (∀ i ∈ ([.nopImm02 v, .nopImp03, .nopImp0B, .nopImp13, .nopImp1B, .nopImm22 v, .nopImp23, .nopImp2B, .nopImp33,
       .nopImp3B, .nopImm42 v, .nopImp43, .nopZp44 z, .nopImp4B, .nopImp53, .nopZpX54 z, .nopImp5B,
       .nopAbs5C w, .nopImm62 v, .nopImp63, .nopImp6B, .nopImp73, .nopImp7B, .nopImm82 v, .nopImp83, .nopImp8B,
       .nopImp93, .nopImp9B, .nopImpA3, .nopImpAB, .nopImpB3, .nopImpBB, .nopImmC2 v, .nopImpC3, .nopImpD3,
       .nopZpXD4 z, .nopAbsDC w, .nopImmE2 v, .nopImpE3, .nop, .nopImpEB, .nopImpF3, .nopZpXF4 z, .nopImpFB,
       .nopAbsFC w] : List Instr),
    exec i s = .next s) ∧
    exec .wai s = .next { s with mode := .waiting } ∧ exec .stp s = .next { s with mode := .stopped }

/-- For every selector below 32 and offset below 2^21, reading the MCU address selector * 2^21 + offset is
Unimplemented(VideoRead) for selector 3, the OTP byte at offset mod OTP_LEN for selectors 0 and 31, and the
flash byte at that offset for every other selector; a write is Unimplemented with VideoWrite, OtpWrite or
FlashWrite; an address at or above 2^26 is refused. -/
def Obligations.RouterDecodesTheSelector : Prop :=
  ∀ (h : Handheld) (sel off : Nat) (v : Byte), sel < 32 → off < 2 ^ 21 →
    (sel = 3 → h.readU8 (sel * 2 ^ 21 + off) = .unimplemented .videoRead ∧
      h.writeU8 (sel * 2 ^ 21 + off) v = .unimplemented .videoWrite) ∧
    (sel = 0 ∨ sel = 31 → h.readU8 (sel * 2 ^ 21 + off) = .byte (h.otp.read (off % h.otpLen)) ∧
      h.writeU8 (sel * 2 ^ 21 + off) v = .unimplemented .otpWrite) ∧
    (sel ≠ 3 → sel ≠ 0 → sel ≠ 31 → h.readU8 (sel * 2 ^ 21 + off) = .byte (h.flash.read off) ∧
      h.writeU8 (sel * 2 ^ 21 + off) v = .unimplemented .flashWrite) ∧
    (∀ addr : Nat, 2 ^ 26 ≤ addr → h.readU8 addr = .refused ∧ h.writeU8 addr v = .refused)

/-- Construction succeeds exactly when both images have the right length; with one length wrong it reports that
error with both lengths, with both wrong one of the two. After it succeeds every OTP offset below OTP_LEN and
below 2^21 reads the byte supplied there, and every flash offset does through selector 1. -/
def Obligations.ConstructionChecksLengthsAndImagesReadBack : Prop :=
  ∀ (otpLen : Nat) (map : List (Nat × McuAddr)) (otp flash : List Byte),
    (otp.length = otpLen → flash.length = 2097152 → ∃ h : Handheld, Handheld.new otpLen map otp flash = .ok h ∧
      (∀ k : Nat, k < otpLen → k < 2 ^ 21 → h.readU8 k = .byte (otp.getD k 0#8)) ∧
      (∀ k : Nat, k < 2097152 → h.readU8 (2 ^ 21 + k) = .byte (flash.getD k 0#8))) ∧
    (otp.length ≠ otpLen → flash.length = 2097152 →
      Handheld.new otpLen map otp flash = .error (.invalidOtp otpLen otp.length)) ∧
    (otp.length = otpLen → flash.length ≠ 2097152 →
      Handheld.new otpLen map otp flash = .error (.invalidFlash 2097152 flash.length)) ∧
    (otp.length ≠ otpLen → flash.length ≠ 2097152 →
      Handheld.new otpLen map otp flash = .error (.invalidOtp otpLen otp.length) ∨
      Handheld.new otpLen map otp flash = .error (.invalidFlash 2097152 flash.length))

/-- Over the Handheld address space, which accepts no write, every store, memory read-modify-write, push, JSR and
BRK faults, for every map of core addresses to MCU addresses; and the core reads through the map: a read of a is
the router byte at the mapped address. -/
def Obligations.StoringOnTheHandheldFaults : Prop :=
  ∀ (s : State) (h : Handheld), s.bus = .handheld h →
    (∀ i : Instr, (writesOf i).mem = true → ∃ f : Fault, exec i s = .fault f) ∧
    (∀ (a : Word) (b : Byte), s.bus.read a = .ok b ↔ h.readU8 (h.mcuOf a).toNat = .byte b) ∧
    (∀ (a : Word) (r : Reason), s.bus.read a = .error r ↔ h.readU8 (h.mcuOf a).toNat = .unimplemented r)

/-- If JSR, run on a state that meets the invariant, answers a next state t whose two stack slots can be read, and the
address space is one of the two the spec describes, or an external one on which the slots read the bytes that were
pushed, RTS from t answers a next state whose PC is the PC the JSR was given (the address after it), with SP
restored and memory as JSR left it. -/
def Obligations.RtsUndoesJsr : Prop :=
  ∀ (s t : State) (w : Word) (lo hi : Byte), s.Inv → exec (.jsr w) s = .next t →
    t.bus.read (stackAddr s.SP) = .ok hi → t.bus.read (stackAddr (s.SP - 1#8)) = .ok lo →
    (s.bus.isExternal = true → hi = highByte (s.PC - 1#16) ∧ lo = lowByte (s.PC - 1#16)) →
    exec .rts t = .next { s with bus := t.bus }

/-- If BRK, run on a state that meets the invariant, answers a next state t whose three stack slots can be read, RTI
from t answers the state BRK was given, with memory as BRK left it and in_service 0: D and I are what they were
before. If entering an interrupt from a Running core gives such a state t, RTI from t answers the interrupted
state, with memory as the entry left it, that request cleared and in_service 0. It holds on the two address spaces
the spec describes, and on an external one on which the slots read the bytes that were pushed. -/
def Obligations.RtiUndoesBrkAndInterruptEntry : Prop :=
  ∀ (s t : State) (p lo hi : Byte), s.Inv →
    t.bus.read (stackAddr s.SP) = .ok hi → t.bus.read (stackAddr (s.SP - 1#8)) = .ok lo →
    t.bus.read (stackAddr (s.SP - 2#8)) = .ok p →
    (s.bus.isExternal = true → hi = highByte s.PC ∧ lo = lowByte s.PC) →
    (∀ signature : Byte, (s.bus.isExternal = true → p = pImage true s) → exec (.brk signature) s = .next t →
      exec .rti t = .next { s with bus := t.bus, inService := false }) ∧
    ((s.bus.isExternal = true → p = pImage false s) → s.mode = .running → enterInterrupt .nmi s = .ok t →
      exec .rti t = .next { s with bus := t.bus, inService := false, pendingNmi := false }) ∧
    ((s.bus.isExternal = true → p = pImage false s) → s.mode = .running → enterInterrupt .irq s = .ok t →
      exec .rti t = .next { s with bus := t.bus, inService := false, pendingIrq := false })
end

