-- ==== Sys2Proof/Laws/Memory.lean ====
section
/-! SUPPORT. The laws of the sparse memory: reading after writing, the canonical form and the bound are kept by
every write, and an image reads back. -/

namespace Sys2Proof.Machine

@[simp] theorem Memory.read_nil (a : Nat) : Memory.read [] a = unlistedByte := rfl

theorem Memory.read_cons (k : Nat) (b : Byte) (rest : Memory) (a : Nat) :
    Memory.read ((k, b) :: rest) a = if k = a then b else Memory.read rest a := rfl

@[simp] theorem Memory.write_nil (a : Nat) (v : Byte) :
    Memory.write [] a v = if v = unlistedByte then [] else [(a, v)] := rfl

/-- One cell of a write, with the four cases side by side. -/
theorem Memory.write_cons (k : Nat) (b : Byte) (rest : Memory) (a : Nat) (v : Byte) :
    Memory.write ((k, b) :: rest) a v =
      if k < a then (k, b) :: Memory.write rest a v
      else if k = a then (if v = unlistedByte then rest else (a, v) :: rest)
      else if v = unlistedByte then (k, b) :: rest else (a, v) :: (k, b) :: rest := by
  rw [Memory.write]
  split
  · rfl
  · by_cases e : k = a <;> simp [e]

/-- A lower bound on the keys, as an if and else over the first cell. -/
theorem Memory.wfAbove_cons (lo : Option Nat) (k : Nat) (b : Byte) (rest : Memory) :
    Memory.wfAbove lo ((k, b) :: rest) = true ↔
      (∀ l, lo = some l → l < k) ∧ b ≠ unlistedByte ∧ Memory.wfAbove (some k) rest = true := by
  cases lo <;> simp [Memory.wfAbove, and_assoc]

/-- Keys above the bound: a key at or below it is not listed. -/
theorem Memory.read_of_wfAbove (m : Memory) (lo a : Nat) (h : Memory.wfAbove (some lo) m = true) (ha : a ≤ lo) :
    m.read a = unlistedByte := by
  induction m generalizing lo with
  | nil => rfl
  | cons c rest ih =>
    obtain ⟨k, b⟩ := c
    simp only [Memory.wfAbove, Bool.and_eq_true, decide_eq_true_eq] at h
    rw [Memory.read_cons, if_neg (by omega)]
    exact ih k h.2 (by omega)

/-- A weaker bound is met too. -/
theorem Memory.wfAbove_mono (m : Memory) (lo hi : Nat) (h : Memory.wfAbove (some hi) m = true) (hl : lo ≤ hi) :
    Memory.wfAbove (some lo) m = true := by
  cases m with
  | nil => rfl
  | cons c rest =>
    simp only [Memory.wfAbove, Bool.and_eq_true, decide_eq_true_eq] at h ⊢
    exact ⟨⟨by omega, h.1.2⟩, h.2⟩

/-- Every key of a canonical memory may be bounded below by anything under its first key. -/
theorem Memory.wfAbove_none (m : Memory) (lo : Nat) (h : Memory.wfAbove (some lo) m = true) :
    Memory.wfAbove none m = true := by
  cases m with
  | nil => rfl
  | cons c rest =>
    simp only [Memory.wfAbove, Bool.and_eq_true] at h ⊢
    exact ⟨⟨trivial, h.1.2⟩, h.2⟩

/-- Reading back the written key of a canonical memory. -/
theorem Memory.read_write_self (m : Memory) (lo : Option Nat) (a : Nat) (v : Byte)
    (h : Memory.wfAbove lo m = true) : (m.write a v).read a = v := by
  induction m generalizing lo with
  | nil => by_cases hv : v = unlistedByte <;> simp [hv, Memory.read_cons]
  | cons c rest ih =>
    obtain ⟨k, b⟩ := c
    have hr := ((Memory.wfAbove_cons lo k b rest).1 h).2.2
    rw [Memory.write_cons]
    split
    · rw [Memory.read_cons, if_neg (by omega)]
      exact ih _ hr
    · have gone : Memory.read rest a = unlistedByte := Memory.read_of_wfAbove rest k a hr (by omega)
      by_cases e : k = a <;> by_cases hv : v = unlistedByte <;> simp [e, hv, Memory.read_cons, gone]

/-- A write leaves every other key as it was. -/
theorem Memory.read_write_other (m : Memory) (a b : Nat) (v : Byte) (hb : b ≠ a) :
    (m.write a v).read b = m.read b := by
  induction m with
  | nil => by_cases hv : v = unlistedByte <;> simp [hv, Memory.read_cons, Ne.symm hb]
  | cons c rest ih =>
    obtain ⟨k, x⟩ := c
    rw [Memory.write_cons]
    split
    · rw [Memory.read_cons, Memory.read_cons, ih]
    · by_cases hk : k = a
      · subst hk
        by_cases hv : v = unlistedByte <;> simp [hv, Memory.read_cons, Ne.symm hb]
      · by_cases hv : v = unlistedByte <;> simp [hv, hk, Memory.read_cons, Ne.symm hb]

/-- A write above the bound keeps the canonical form above that bound. -/
theorem Memory.wfAbove_write (m : Memory) (lo : Option Nat) (a : Nat) (v : Byte)
    (h : Memory.wfAbove lo m = true) (hl : ∀ l, lo = some l → l < a) :
    Memory.wfAbove lo (m.write a v) = true := by
  induction m generalizing lo with
  | nil =>
    by_cases hv : v = unlistedByte
    · simp [hv, Memory.wfAbove]
    · simp only [Memory.write_nil, hv, if_false, Memory.wfAbove_cons]
      exact ⟨hl, hv, rfl⟩
  | cons c rest ih =>
    obtain ⟨k, b⟩ := c
    obtain ⟨h1, h2, h3⟩ := (Memory.wfAbove_cons lo k b rest).1 h
    rw [Memory.write_cons]
    split
    · rename_i hk
      exact (Memory.wfAbove_cons _ _ _ _).2 ⟨h1, h2, ih _ h3 (by rintro l ⟨⟩; exact hk)⟩
    · split
      · rename_i e
        subst e
        split
        · cases lo with
          | none => exact Memory.wfAbove_none _ _ h3
          | some l => exact Memory.wfAbove_mono _ l k h3 (Nat.le_of_lt (hl l rfl))
        · rename_i hv
          exact (Memory.wfAbove_cons _ _ _ _).2 ⟨hl, hv, h3⟩
      · split
        · exact h
        · rename_i hv
          exact (Memory.wfAbove_cons _ _ _ _).2
            ⟨hl, hv, (Memory.wfAbove_cons _ _ _ _).2 ⟨by rintro l ⟨⟩; omega, h2, h3⟩⟩

/-- A write keeps the canonical form. -/
theorem Memory.wf_write (m : Memory) (a : Nat) (v : Byte) (h : m.wf = true) : (m.write a v).wf = true :=
  Memory.wfAbove_write m none a v h (by rintro l ⟨⟩)

/-- Reading back what was written to a canonical memory. -/
theorem Memory.read_write (m : Memory) (a b : Nat) (v : Byte) (h : m.wf = true) :
    (m.write a v).read b = if b = a then v else m.read b := by
  split
  · rename_i e; subst e; exact Memory.read_write_self m none b v h
  · rename_i e; exact Memory.read_write_other m a b v e

theorem Memory.within_cons (size k : Nat) (b : Byte) (rest : Memory) :
    Memory.within size ((k, b) :: rest) = true ↔ k < size ∧ Memory.within size rest = true := by
  simp [Memory.within]

/-- A write inside the space keeps every key inside it. -/
theorem Memory.within_write (m : Memory) (size a : Nat) (v : Byte) (h : m.within size = true) (ha : a < size) :
    (m.write a v).within size = true := by
  induction m with
  | nil => by_cases hv : v = unlistedByte <;> simp [hv, Memory.within, ha]
  | cons c rest ih =>
    obtain ⟨k, b⟩ := c
    obtain ⟨hk, hr⟩ := (Memory.within_cons _ _ _ _).1 h
    rw [Memory.write_cons]
    split
    · exact (Memory.within_cons _ _ _ _).2 ⟨hk, ih hr⟩
    · by_cases e : k = a <;> by_cases hv : v = unlistedByte <;> simp [e, hv, Memory.within_cons, hr, ha, hk]

/-- The bytes of an image read back at their offsets. -/
theorem Memory.read_ofBytes (bytes : List Byte) (base k : Nat) :
    (Memory.ofBytes base bytes).read (base + k) = bytes.getD k unlistedByte := by
  have below : ∀ (bytes : List Byte) (base a : Nat), a < base → (Memory.ofBytes base bytes).read a = unlistedByte := by
    intro bytes
    induction bytes with
    | nil => intros; rfl
    | cons b rest ih =>
      intro base a ha
      unfold Memory.ofBytes
      split
      · exact ih _ _ (by omega)
      · rw [Memory.read_cons, if_neg (by omega)]; exact ih _ _ (by omega)
  induction bytes generalizing base k with
  | nil => rfl
  | cons b rest ih =>
    unfold Memory.ofBytes
    cases k with
    | zero =>
      split
      · rename_i hb; rw [below _ _ _ (by omega)]; simp [hb]
      · simp [Memory.read_cons]
    | succ n =>
      have hn := ih (base + 1) n
      rw [show base + 1 + n = base + (n + 1) by omega] at hn
      split
      · simpa using hn
      · rw [Memory.read_cons, if_neg (by omega)]; simpa using hn

/-- An image is canonical. -/
theorem Memory.wf_ofBytes (bytes : List Byte) (base : Nat) : (Memory.ofBytes base bytes).wf = true := by
  have above : ∀ (bytes : List Byte) (base lo : Nat), lo < base →
      Memory.wfAbove (some lo) (Memory.ofBytes base bytes) = true := by
    intro bytes
    induction bytes with
    | nil => intros; rfl
    | cons b rest ih =>
      intro base lo h
      unfold Memory.ofBytes
      split
      · exact ih _ _ (by omega)
      · rename_i hb
        simp only [Memory.wfAbove, Bool.and_eq_true, decide_eq_true_eq, bne_iff_ne, ne_eq]
        exact ⟨⟨h, hb⟩, ih _ _ (by omega)⟩
  induction bytes generalizing base with
  | nil => rfl
  | cons b rest ih =>
    unfold Memory.ofBytes
    split
    · exact ih _
    · rename_i hb
      simp only [Memory.wf, Memory.wfAbove, Bool.true_and, Bool.and_eq_true, bne_iff_ne, ne_eq]
      exact ⟨hb, above _ _ _ (by omega)⟩

/-- An image lies inside its region. -/
theorem Memory.within_ofBytes (bytes : List Byte) (base : Nat) :
    (Memory.ofBytes base bytes).within (base + bytes.length) = true := by
  have weaken : ∀ (m : Memory) (x y : Nat), x = y → m.within x = true → m.within y = true := by
    rintro m x _ rfl h; exact h
  induction bytes generalizing base with
  | nil => rfl
  | cons b rest ih =>
    have h := weaken _ _ (base + (b :: rest).length) (by simp; omega) (ih (base + 1))
    unfold Memory.ofBytes
    split
    · exact h
    · simp only [Memory.within, List.all_cons, Bool.and_eq_true, decide_eq_true_eq] at h ⊢
      exact ⟨by simp, h⟩

end Sys2Proof.Machine
end

