-- ==== Sys2Proof/Laws/AddressSpace.lean ====
section
/-! SUPPORT. The laws of the address space: what an accepted write can be, what it does to every read, to the
refusals and to well-formedness; chains of writes, which is all that a step does to an address space; and that
every implementation of the capability is an external one. -/

namespace Sys2Proof.Machine

/-- An accepted write is one of the harness memory at an address no hole blocks, or an external one. -/
theorem AddressSpace.write_eq_ok {m m' : AddressSpace} {a : Word} {v : Byte} (h : m.write a v = .ok m') :
    (∃ k : Harness, m = .harness k ∧ k.writeHole a = none ∧
      m' = .harness { k with mem := k.mem.write a.toNat v }) ∨
    (∃ (e : External) (c : Nat), m = .external e ∧
      Config.externalWrite e.implementation e.contents a v = .ok c ∧ m' = .external { e with contents := c }) := by
  cases m with
  | harness k =>
    simp only [AddressSpace.write] at h
    cases hw : k.writeHole a with
    | none => rw [hw] at h; exact .inl ⟨k, rfl, hw, (Except.ok.inj h).symm⟩
    | some o => rw [hw] at h; cases h
  | handheld k => cases h
  | external e =>
    simp only [AddressSpace.write] at h
    cases hw : Config.externalWrite e.implementation e.contents a v with
    | ok c => rw [hw] at h; exact .inr ⟨e, c, rfl, hw, (Except.ok.inj h).symm⟩
    | error r => rw [hw] at h; cases h

/-- Of the two address spaces the spec describes, only the harness accepts a write. -/
theorem AddressSpace.write_eq_ok_harness {m m' : AddressSpace} {a : Word} {v : Byte} (hx : m.isExternal = false)
    (h : m.write a v = .ok m') :
    ∃ k : Harness, m = .harness k ∧ m' = .harness { k with mem := k.mem.write a.toNat v } := by
  obtain ⟨k, rfl, -, rfl⟩ | ⟨e, c, rfl, -⟩ := AddressSpace.write_eq_ok h
  · exact ⟨k, rfl, rfl⟩
  · cases hx

/-- The Handheld accepts no write (20_memory.md R85). -/
theorem AddressSpace.write_handheld (h : Handheld) (a : Word) (v : Byte) :
    (AddressSpace.handheld h).write a v = .error (h.writeReason a) := rfl

/-- A write an external space accepts, and one it refuses (20_memory.md R60). -/
theorem AddressSpace.write_external_ok {e : External} {a : Word} {v : Byte} {c : Nat}
    (h : Config.externalWrite e.implementation e.contents a v = .ok c) :
    (AddressSpace.external e).write a v = .ok (.external { e with contents := c }) := by
  simp only [AddressSpace.write, h]

theorem AddressSpace.write_external_error {e : External} {a : Word} {v : Byte} {r : Reason}
    (h : Config.externalWrite e.implementation e.contents a v = .error r) :
    (AddressSpace.external e).write a v = .error r := by
  simp only [AddressSpace.write, h]

/-- A write does not change which kind is bound. -/
theorem AddressSpace.isExternal_write {m m' : AddressSpace} {a : Word} {v : Byte} (h : m.write a v = .ok m') :
    m'.isExternal = m.isExternal := by
  obtain ⟨k, rfl, -, rfl⟩ | ⟨e, c, rfl, -, rfl⟩ := AddressSpace.write_eq_ok h <;> rfl

/-- A write leaves every other address as it was. -/
theorem AddressSpace.read_write_other {m m' : AddressSpace} {a : Word} {v : Byte} (hx : m.isExternal = false)
    (h : m.write a v = .ok m') (b : Word) (hb : b ≠ a) : m'.read b = m.read b := by
  obtain ⟨k, rfl, rfl⟩ := AddressSpace.write_eq_ok_harness hx h
  have hn : b.toNat ≠ a.toNat := fun e => hb (BitVec.eq_of_toNat_eq e)
  simp only [AddressSpace.read, Harness.readHole, Memory.read_write_other k.mem a.toNat b.toNat v hn]

/-- Whether an address can be read, and why not, does not change by a write. -/
theorem AddressSpace.read_error_write {m m' : AddressSpace} {a : Word} {v : Byte} (hx : m.isExternal = false)
    (h : m.write a v = .ok m') (b : Word) (r : Reason) : m'.read b = .error r ↔ m.read b = .error r := by
  obtain ⟨k, rfl, rfl⟩ := AddressSpace.write_eq_ok_harness hx h
  simp only [AddressSpace.read, Harness.readHole]
  split <;> simp

/-- The written address, if it can be read, reads the byte written. -/
theorem AddressSpace.read_write_self {m m' : AddressSpace} {a : Word} {v : Byte} (hx : m.isExternal = false)
    (hm : m.wf = true) (h : m.write a v = .ok m') {c : Byte} (hc : m'.read a = .ok c) : c = v := by
  obtain ⟨k, rfl, rfl⟩ := AddressSpace.write_eq_ok_harness hx h
  simp only [AddressSpace.wf, Harness.wf, Bool.and_eq_true] at hm
  simp only [AddressSpace.read, Harness.readHole] at hc
  split at hc
  · cases hc
  · exact (Except.ok.inj hc).symm.trans (Memory.read_write_self k.mem none a.toNat v hm.1)

/-- Which writes are refused, and why, does not change by a write. -/
theorem AddressSpace.write_error_write {m m' : AddressSpace} {a : Word} {v : Byte} (hx : m.isExternal = false)
    (h : m.write a v = .ok m') (b : Word) (u : Byte) (r : Reason) :
    m'.write b u = .error r ↔ m.write b u = .error r := by
  obtain ⟨k, rfl, rfl⟩ := AddressSpace.write_eq_ok_harness hx h
  simp only [AddressSpace.write, Harness.writeHole]
  split <;> simp

/-- A write keeps the address space well formed. -/
theorem AddressSpace.wf_write {m m' : AddressSpace} {a : Word} {v : Byte} (hm : m.wf = true)
    (h : m.write a v = .ok m') : m'.wf = true := by
  obtain ⟨k, rfl, -, rfl⟩ | ⟨e, c, rfl, -, rfl⟩ := AddressSpace.write_eq_ok h
  · simp only [AddressSpace.wf, Harness.wf, Bool.and_eq_true] at hm ⊢
    exact ⟨Memory.wf_write _ _ _ hm.1, Memory.within_write _ _ _ _ hm.2 a.isLt⟩
  · rfl

/-! ### Chains of writes -/

theorem Written.nil (m : AddressSpace) : Written [] m m := rfl

theorem Written.one {m n : AddressSpace} {a : Word} {v : Byte} (h : m.write a v = .ok n) : Written [a] m n :=
  ⟨v, n, h, rfl⟩

theorem Written.append {l p : List Word} {m n k : AddressSpace} (h : Written l m n) (g : Written p n k) :
    Written (l ++ p) m k := by
  induction l generalizing m with
  | nil => cases h; exact g
  | cons a l ih =>
    obtain ⟨v, j, hw, hr⟩ := h
    exact ⟨v, j, hw, ih hr⟩

/-- What every write keeps, a list of writes keeps. -/
theorem Written.keeps {P : AddressSpace → Prop}
    (hP : ∀ {m n : AddressSpace} {a : Word} {v : Byte}, P m → m.write a v = .ok n → P n) {l : List Word}
    {m n : AddressSpace} (h : Written l m n) (hm : P m) : P n := by
  induction l generalizing m with
  | nil => cases h; exact hm
  | cons a l ih =>
    obtain ⟨v, k, hw, hr⟩ := h
    exact ih hr (hP hm hw)

/-- A list of writes leaves every address it does not name as it was. -/
theorem Written.read_other {l : List Word} {m n : AddressSpace} (hx : m.isExternal = false) (h : Written l m n)
    (b : Word) (hb : b ∉ l) : n.read b = m.read b := by
  induction l generalizing m with
  | nil => cases h; rfl
  | cons a l ih =>
    obtain ⟨v, k, hw, hr⟩ := h
    have hb := not_or.1 (List.mem_cons.not.1 hb)
    exact (ih ((AddressSpace.isExternal_write hw).trans hx) hr hb.2).trans
      (AddressSpace.read_write_other hx hw b hb.1)

/-- `k` is reached from `m` by at most `n` accepted writes. -/
def WriteChain (n : Nat) (m k : AddressSpace) : Prop := ∃ l : List Word, l.length ≤ n ∧ Written l m k

theorem WriteChain.refl {n : Nat} (m : AddressSpace) : WriteChain n m m := ⟨[], Nat.zero_le _, rfl⟩

theorem Written.chain {l : List Word} {n : Nat} {m k : AddressSpace} (h : Written l m k)
    (hn : l.length ≤ n := by simp) : WriteChain n m k := ⟨l, hn, h⟩

theorem WriteChain.mono {n p : Nat} {m k : AddressSpace} (h : WriteChain n m k) (hn : n ≤ p) : WriteChain p m k :=
  let ⟨l, hl, hw⟩ := h
  ⟨l, Nat.le_trans hl hn, hw⟩

theorem WriteChain.trans {n p : Nat} {m k j : AddressSpace} (h : WriteChain n m k) (g : WriteChain p k j) :
    WriteChain (n + p) m j := by
  obtain ⟨l, hl, hw⟩ := h
  obtain ⟨q, hq, gw⟩ := g
  exact ⟨l ++ q, by rw [List.length_append]; omega, hw.append gw⟩

theorem WriteChain.wf {n : Nat} {m k : AddressSpace} (h : WriteChain n m k) (hm : m.wf = true) : k.wf = true :=
  let ⟨_, _, hw⟩ := h
  hw.keeps (P := fun b => b.wf = true) AddressSpace.wf_write hm

/-- On the two address spaces the spec describes, writes do not change which reads are refused, and why. -/
theorem WriteChain.read_error {n : Nat} {m k : AddressSpace} (hx : m.isExternal = false) (h : WriteChain n m k)
    (b : Word) (r : Reason) : k.read b = .error r ↔ m.read b = .error r := by
  obtain ⟨l, -, hw⟩ := h
  exact (hw.keeps (P := fun j => j.isExternal = false ∧ (j.read b = .error r ↔ m.read b = .error r))
    (fun hj w => ⟨(AddressSpace.isExternal_write w).trans hj.1,
      (AddressSpace.read_error_write hj.1 w b r).trans hj.2⟩) ⟨hx, Iff.rfl⟩).2

/-- Nor which writes are refused, and why. -/
theorem WriteChain.write_error {n : Nat} {m k : AddressSpace} (hx : m.isExternal = false) (h : WriteChain n m k)
    (b : Word) (u : Byte) (r : Reason) : k.write b u = .error r ↔ m.write b u = .error r := by
  obtain ⟨l, -, hw⟩ := h
  exact (hw.keeps (P := fun j => j.isExternal = false ∧ (j.write b u = .error r ↔ m.write b u = .error r))
    (fun hj w => ⟨(AddressSpace.isExternal_write w).trans hj.1,
      (AddressSpace.write_error_write hj.1 w b u r).trans hj.2⟩) ⟨hx, Iff.rfl⟩).2

/-- No writes lead from a Handheld to another address space. -/
theorem WriteChain.handheld {n : Nat} {h : Handheld} {k : AddressSpace} (c : WriteChain n (.handheld h) k) :
    k = .handheld h := by
  obtain ⟨l, -, hw⟩ := c
  exact hw.keeps (P := fun j => j = .handheld h) (fun e w => by subst e; cases w) rfl

/-- Writes change nothing of a harness but its memory. -/
theorem WriteChain.harness {n : Nat} {h : Harness} {k : AddressSpace} (c : WriteChain n (.harness h) k) :
    ∃ mem : Memory, k = .harness { h with mem := mem } := by
  obtain ⟨l, -, hw⟩ := c
  refine hw.keeps (P := fun j => ∃ mem : Memory, j = .harness { h with mem := mem }) ?_ ⟨h.mem, rfl⟩
  rintro _ _ _ _ ⟨mem, rfl⟩ w
  obtain ⟨j, hj, rfl⟩ := AddressSpace.write_eq_ok_harness rfl w
  cases hj
  exact ⟨_, rfl⟩

/-- Writes change nothing of an external space but its state in S. -/
theorem WriteChain.external {n : Nat} {e : External} {k : AddressSpace} (c : WriteChain n (.external e) k) :
    ∃ contents : Nat, k = .external { e with contents := contents } := by
  obtain ⟨l, -, hw⟩ := c
  refine hw.keeps (P := fun j => ∃ contents : Nat, j = .external { e with contents := contents }) ?_
    ⟨e.contents, rfl⟩
  rintro _ _ _ _ ⟨contents, rfl⟩ w
  obtain ⟨j, hj, -, -⟩ | ⟨j, d, hj, -, rfl⟩ := AddressSpace.write_eq_ok w
  · cases hj
  · cases hj
    exact ⟨_, rfl⟩

/-! ### Every implementation is an external one -/

/-- The state of S that a list of writes, the last one first, leads to from `s`; a refused one leads nowhere. -/
def replay {S : Type} (write : S → Word → Byte → Except Reason S) (s : S) : List (Nat × Nat) → S
  | [] => s
  | (a, v) :: earlier =>
    match write (replay write s earlier) (BitVec.ofNat 16 a) (BitVec.ofNat 8 v) with
    | .ok t => t
    | .error _ => replay write s earlier

/-- Numbers lose nothing: for any state type S, any two functions of 20_memory.md R60 and any state of S there are
functions of the types of Config.externalRead and Config.externalWrite (of one implementation), a meaning for
numbers as states of S, and a number for that state, under which every read answers the same and every write is
refused for the same reason or leads to the same state. Since the two constants have no value, whatever is proved
of the core holds with them replaced by such functions, so for every implementation. -/
theorem every_capability_is_external {S : Type} (read : S → Word → Except Reason Byte)
    (write : S → Word → Byte → Except Reason S) (start : S) :
    ∃ (r : Nat → Word → Except Reason Byte) (w : Nat → Word → Byte → Except Reason Nat) (means : Nat → S) (n : Nat),
      means n = start ∧ (∀ k a, r k a = read (means k) a) ∧
        ∀ k a v, (w k a v).map means = write (means k) a v := by
  let past (k : Nat) : List (Nat × Nat) := (Encodable.decode (α := List (Nat × Nat)) k).getD []
  let means (k : Nat) : S := replay write start (past k)
  refine ⟨fun k a => read (means k) a,
    fun k a v => (write (means k) a v).map fun _ => Encodable.encode ((a.toNat, v.toNat) :: past k),
    means, Encodable.encode ([] : List (Nat × Nat)), ?_, fun _ _ => rfl, fun k a v => ?_⟩
  · simp only [means, past, Encodable.encodek, Option.getD_some, replay]
  · simp only
    cases h : write (means k) a v with
    | error r => rfl
    | ok t =>
      have hm : means (Encodable.encode ((a.toNat, v.toNat) :: past k)) = t := by
        simp only [means, past] at h
        simp only [means, past, Encodable.encodek, Option.getD_some, replay, BitVec.ofNat_toNat,
          BitVec.setWidth_eq, h]
      exact congrArg Except.ok hm

/-- The router's region of an MCU address written as selector and offset. -/
theorem mcu_split (sel off : Nat) (hoff : off < 2 ^ 21) :
    mcuSelector (sel * 2 ^ 21 + off) = sel ∧ mcuOffset (sel * 2 ^ 21 + off) = off := by
  unfold mcuSelector mcuOffset
  omega

/-- A core read of the Handheld is the router's read at the mapped address; no mapped address is outside the
router's space (20_memory.md R86). -/
theorem Handheld.read_eq (h : Handheld) (a : Word) :
    h.readU8 (h.mcuOf a).toNat =
      match h.read a with | .ok b => .byte b | .error r => .unimplemented r := by
  have := (h.mcuOf a).isLt
  exact if_neg (by unfold mcuSize; omega)

end Sys2Proof.Machine
end

