-- ==== Sys2Proof/Laws/Bits.lean ====
section
/-! SUPPORT. The byte and word helpers as arithmetic on numbers. -/

namespace Sys2Proof.Machine

@[simp] theorem concat16_toNat (hi lo : Byte) : (concat16 hi lo).toNat = hi.toNat * 256 + lo.toNat := by
  have h := Nat.shiftLeft_add_eq_or_of_lt lo.isLt hi.toNat
  rw [concat16, BitVec.toNat_append, ← h, Nat.shiftLeft_eq]

@[simp] theorem highByte_toNat (w : Word) : (highByte w).toNat = w.toNat / 256 := by
  have := w.isLt
  simp only [highByte, BitVec.extractLsb'_toNat, Nat.shiftRight_eq_div_pow]
  omega

@[simp] theorem lowByte_toNat (w : Word) : (lowByte w).toNat = w.toNat % 256 := by
  simp [lowByte]

@[simp] theorem concat16_highByte_lowByte (w : Word) : concat16 (highByte w) (lowByte w) = w := by
  apply BitVec.eq_of_toNat_eq
  simp only [concat16_toNat, highByte_toNat, lowByte_toNat]
  omega

@[simp] theorem highByte_concat16 (hi lo : Byte) : highByte (concat16 hi lo) = hi := by
  apply BitVec.eq_of_toNat_eq
  have := lo.isLt
  simp only [concat16_toNat, highByte_toNat]
  omega

@[simp] theorem lowByte_concat16 (hi lo : Byte) : lowByte (concat16 hi lo) = lo := by
  apply BitVec.eq_of_toNat_eq
  have := lo.isLt
  simp only [concat16_toNat, lowByte_toNat]
  omega

theorem concat16_eq_ofNat (hi lo : Byte) : concat16 hi lo = BitVec.ofNat 16 (hi.toNat * 256 + lo.toNat) := by
  apply BitVec.eq_of_toNat_eq
  have := lo.isLt
  have := hi.isLt
  simp only [concat16_toNat, BitVec.toNat_ofNat]
  omega

@[simp] theorem zext16_toNat (b : Byte) : (zext16 b).toNat = b.toNat := by
  have := b.isLt
  simp only [zext16, BitVec.toNat_setWidth]
  omega

/-- An address with the number of a zero-page byte is that byte extended. -/
theorem eq_zext16 {a : Word} {z : Byte} (h : a.toNat = z.toNat) : a = zext16 z :=
  BitVec.eq_of_toNat_eq (by rw [h, zext16_toNat])

/-- A word plus a sign-extended byte is the exact integer sum, narrowed (00_scope.md R13). -/
theorem add_sext16 (w : Word) (b : Byte) : w + sext16 b = BitVec.ofInt 16 ((w.toNat : Int) + b.toInt) := by
  have h : sext16 b = BitVec.ofInt 16 b.toInt := by
    unfold sext16 BitVec.signExtend
    rfl
  rw [h, BitVec.ofInt_add]
  congr 1
  simp

end Sys2Proof.Machine
end

