-- ==== Sys2Proof/Laws/Arithmetic.lean ====
section
/-! SUPPORT. The flag computations in the terms an arithmetic proof uses: a carry as a number, a sign bit as a bit
of the byte, a zero test as an equation. -/

namespace Sys2Proof.Machine

theorem carryNat_eq_toNat (c : Bool) : carryNat c = c.toNat := by cases c <;> rfl

theorem carryNat_le_one (c : Bool) : carryNat c ≤ 1 := by cases c <;> decide

/-- The sign bit of a byte is its bit 7, and says that the byte is 128 or more. -/
theorem msb_eq_bit7 (m : Byte) : m.msb = m.getLsbD 7 := BitVec.msb_eq_getLsbD_last m

theorem msb_eq_decide_128 (m : Byte) : m.msb = decide (128 ≤ m.toNat) := BitVec.msb_eq_decide m

/-- A byte compares equal to 0x00 when its number is 0. -/
theorem beq_zero_eq_decide (m : Byte) : (m == 0x00#8) = decide (m.toNat = 0) := by
  by_cases h : m = 0#8
  · subst h; rfl
  · have : m.toNat ≠ 0 := fun e => h (BitVec.eq_of_toNat_eq e)
    simp [h, this]

@[simp] theorem addBin_result_toNat (a m : Byte) (c : Bool) :
    (addBin a m c).result.toNat = (a.toNat + m.toNat + carryNat c) % 256 := by
  simp [addBin]

/-- The overflow of the binary adder by sign bits: both operands have a sign other than the result's. -/
theorem addBin_overflow_eq (a m : Byte) (c : Bool) :
    (addBin a m c).overflow =
      ((a.msb ^^ (addBin a m c).result.msb) && (m.msb ^^ (addBin a m c).result.msb)) := by
  simp [addBin, BitVec.msb_and, BitVec.msb_xor]

/-- The complement of a byte as a number. -/
theorem not_toNat (m : Byte) : (~~~m).toNat = 255 - m.toNat := by
  rw [BitVec.toNat_not]

end Sys2Proof.Machine
end

