-- ==== Sys2Proof/Laws/Decode.lean ====
section
/-! SUPPORT. The decoder by the opcode's format, the shape of the opcode map, and the operand assembly both
ways. -/

namespace Sys2Proof

/-- An abs16 operand is assembled from the bytes it is written as (30_encoding.md R105). -/
@[simp] theorem abs16Bytes_concat16 (lo hi : Byte) : abs16Bytes (Machine.concat16 hi lo) = [lo, hi] := by
  simp [abs16Bytes]

/-- The map has sixteen rows of sixteen entries, so the lookup's default is never taken. -/
theorem opcodeMap_is_16_by_16 : opcodeMap.map List.length = List.replicate 16 16 := by rfl

theorem decode_f1 {op : Byte} {i : Instr} (h : decodeOpcode op = .f1 i) (rest : List Byte) :
    decode (op :: rest) = .ok (i, rest) := by
  cases rest <;> simp [decode, h]

theorem decode_f2 {op : Byte} {make : Byte → Instr} (h : decodeOpcode op = .f2 make) (op1 : Byte)
    (rest : List Byte) : decode (op :: op1 :: rest) = .ok (make op1, rest) := by
  simp [decode, h]

theorem decode_f3 {op : Byte} {make : Byte → Byte → Instr} (h : decodeOpcode op = .f3 make) (op1 op2 : Byte)
    (rest : List Byte) : decode (op :: op1 :: op2 :: rest) = .ok (make op1 op2, rest) := by
  simp [decode, h]

/-- Whenever bytes decode, they begin with an opcode of one of the three formats and its operand bytes. -/
theorem decode_eq_ok {bytes : List Byte} {i : Instr} {rest : List Byte} (h : decode bytes = .ok (i, rest)) :
    ∃ op : Byte,
      (decodeOpcode op = .f1 i ∧ bytes = op :: rest) ∨
      (∃ make op1, decodeOpcode op = .f2 make ∧ i = make op1 ∧ bytes = op :: op1 :: rest) ∨
      (∃ make op1 op2, decodeOpcode op = .f3 make ∧ i = make op1 op2 ∧ bytes = op :: op1 :: op2 :: rest) := by
  cases bytes with
  | nil => cases h
  | cons op tail =>
    refine ⟨op, ?_⟩
    cases hf : decodeOpcode op with
    | f1 j =>
      rw [decode_f1 hf] at h
      cases h
      exact .inl ⟨rfl, rfl⟩
    | f2 make =>
      rcases tail with _ | ⟨op1, tail⟩
      · simp [decode, hf] at h
      · rw [decode_f2 hf] at h
        cases h
        exact .inr (.inl ⟨make, op1, rfl, rfl, rfl⟩)
    | f3 make =>
      rcases tail with _ | ⟨op1, _ | ⟨op2, tail⟩⟩
      · simp [decode, hf] at h
      · simp [decode, hf] at h
      · rw [decode_f3 hf] at h
        cases h
        exact .inr (.inr ⟨make, op1, op2, rfl, rfl, rfl⟩)

/-- The format's instructions are encoded with this opcode byte and their operand bytes. -/
def Format.Encodes (op : Byte) : Format → Prop
  | .f1 i => encode i = [op] ∧ instrLength i = 1
  | .f2 make => ∀ op1, encode (make op1) = [op, op1] ∧ instrLength (make op1) = 2
  | .f3 make => ∀ op1 op2, encode (make op1 op2) = [op, op1, op2] ∧ instrLength (make op1 op2) = 3

theorem abs16_encodes {op : Byte} {make : Word → Instr} (h : ∀ w, encode (make w) = op :: abs16Bytes w)
    (hl : ∀ w, instrLength (make w) = 3) : (abs16 make).Encodes op := by
  intro op1 op2
  exact ⟨by rw [h, abs16Bytes_concat16], hl _⟩

/-- Every opcode's format gives instructions encoded with that opcode. -/
theorem decodeOpcode_encodes (op : Byte) : (decodeOpcode op).Encodes op := by
  have all : ∀ n, n < 256 → (decodeOpcode (BitVec.ofNat 8 n)).Encodes (BitVec.ofNat 8 n) := by
    intro n hn
    interval_cases n
    all_goals first
      | exact ⟨rfl, rfl⟩
      | exact fun _ => ⟨rfl, rfl⟩
      | exact fun _ _ => ⟨rfl, rfl⟩
      | exact abs16_encodes (fun _ => rfl) (fun _ => rfl)
  have h := all op.toNat op.isLt
  rwa [BitVec.ofNat_toNat, BitVec.setWidth_eq] at h

end Sys2Proof
end

