-- ==== Sys2Proof/Laws/State.lean ====
section
/-! SUPPORT. What each named update of the state does to each field: one lemma a field, true by rfl, so that no
proof unfolds a record update. -/

namespace Sys2Proof.Machine

@[simp] theorem setNZ_A (v : Byte) (s : State) : (setNZ v s).A = s.A := rfl
@[simp] theorem setNZ_X (v : Byte) (s : State) : (setNZ v s).X = s.X := rfl
@[simp] theorem setNZ_Y (v : Byte) (s : State) : (setNZ v s).Y = s.Y := rfl
@[simp] theorem setNZ_SP (v : Byte) (s : State) : (setNZ v s).SP = s.SP := rfl
@[simp] theorem setNZ_PC (v : Byte) (s : State) : (setNZ v s).PC = s.PC := rfl
@[simp] theorem setNZ_N (v : Byte) (s : State) : (setNZ v s).N = v.msb := rfl
@[simp] theorem setNZ_V (v : Byte) (s : State) : (setNZ v s).V = s.V := rfl
@[simp] theorem setNZ_D (v : Byte) (s : State) : (setNZ v s).D = s.D := rfl
@[simp] theorem setNZ_I (v : Byte) (s : State) : (setNZ v s).I = s.I := rfl
@[simp] theorem setNZ_Z (v : Byte) (s : State) : (setNZ v s).Z = (v == 0x00#8) := rfl
@[simp] theorem setNZ_C (v : Byte) (s : State) : (setNZ v s).C = s.C := rfl
@[simp] theorem setNZ_pendingNmi (v : Byte) (s : State) : (setNZ v s).pendingNmi = s.pendingNmi := rfl
@[simp] theorem setNZ_pendingIrq (v : Byte) (s : State) : (setNZ v s).pendingIrq = s.pendingIrq := rfl
@[simp] theorem setNZ_inService (v : Byte) (s : State) : (setNZ v s).inService = s.inService := rfl
@[simp] theorem setNZ_mode (v : Byte) (s : State) : (setNZ v s).mode = s.mode := rfl
@[simp] theorem setNZ_bus (v : Byte) (s : State) : (setNZ v s).bus = s.bus := rfl
@[simp] theorem setNZ_params (v : Byte) (s : State) : (setNZ v s).params = s.params := rfl

@[simp] theorem loadFlags_A (p : Byte) (s : State) : (loadFlags p s).A = s.A := rfl
@[simp] theorem loadFlags_X (p : Byte) (s : State) : (loadFlags p s).X = s.X := rfl
@[simp] theorem loadFlags_Y (p : Byte) (s : State) : (loadFlags p s).Y = s.Y := rfl
@[simp] theorem loadFlags_SP (p : Byte) (s : State) : (loadFlags p s).SP = s.SP := rfl
@[simp] theorem loadFlags_PC (p : Byte) (s : State) : (loadFlags p s).PC = s.PC := rfl
@[simp] theorem loadFlags_N (p : Byte) (s : State) : (loadFlags p s).N = p.getLsbD 7 := rfl
@[simp] theorem loadFlags_V (p : Byte) (s : State) : (loadFlags p s).V = p.getLsbD 6 := rfl
@[simp] theorem loadFlags_D (p : Byte) (s : State) : (loadFlags p s).D = p.getLsbD 3 := rfl
@[simp] theorem loadFlags_I (p : Byte) (s : State) : (loadFlags p s).I = p.getLsbD 2 := rfl
@[simp] theorem loadFlags_Z (p : Byte) (s : State) : (loadFlags p s).Z = p.getLsbD 1 := rfl
@[simp] theorem loadFlags_C (p : Byte) (s : State) : (loadFlags p s).C = p.getLsbD 0 := rfl
@[simp] theorem loadFlags_pendingNmi (p : Byte) (s : State) : (loadFlags p s).pendingNmi = s.pendingNmi := rfl
@[simp] theorem loadFlags_pendingIrq (p : Byte) (s : State) : (loadFlags p s).pendingIrq = s.pendingIrq := rfl
@[simp] theorem loadFlags_inService (p : Byte) (s : State) : (loadFlags p s).inService = s.inService := rfl
@[simp] theorem loadFlags_mode (p : Byte) (s : State) : (loadFlags p s).mode = s.mode := rfl
@[simp] theorem loadFlags_bus (p : Byte) (s : State) : (loadFlags p s).bus = s.bus := rfl
@[simp] theorem loadFlags_params (p : Byte) (s : State) : (loadFlags p s).params = s.params := rfl

@[simp] theorem setSum_A (r : Sum) (s : State) : (setSum r s).A = r.result := rfl
@[simp] theorem setSum_X (r : Sum) (s : State) : (setSum r s).X = s.X := rfl
@[simp] theorem setSum_Y (r : Sum) (s : State) : (setSum r s).Y = s.Y := rfl
@[simp] theorem setSum_SP (r : Sum) (s : State) : (setSum r s).SP = s.SP := rfl
@[simp] theorem setSum_PC (r : Sum) (s : State) : (setSum r s).PC = s.PC := rfl
@[simp] theorem setSum_N (r : Sum) (s : State) : (setSum r s).N = r.result.msb := rfl
@[simp] theorem setSum_V (r : Sum) (s : State) : (setSum r s).V = r.overflow := rfl
@[simp] theorem setSum_D (r : Sum) (s : State) : (setSum r s).D = s.D := rfl
@[simp] theorem setSum_I (r : Sum) (s : State) : (setSum r s).I = s.I := rfl
@[simp] theorem setSum_Z (r : Sum) (s : State) : (setSum r s).Z = (r.result == 0x00#8) := rfl
@[simp] theorem setSum_C (r : Sum) (s : State) : (setSum r s).C = r.carry := rfl
@[simp] theorem setSum_pendingNmi (r : Sum) (s : State) : (setSum r s).pendingNmi = s.pendingNmi := rfl
@[simp] theorem setSum_pendingIrq (r : Sum) (s : State) : (setSum r s).pendingIrq = s.pendingIrq := rfl
@[simp] theorem setSum_inService (r : Sum) (s : State) : (setSum r s).inService = s.inService := rfl
@[simp] theorem setSum_mode (r : Sum) (s : State) : (setSum r s).mode = s.mode := rfl
@[simp] theorem setSum_bus (r : Sum) (s : State) : (setSum r s).bus = s.bus := rfl
@[simp] theorem setSum_params (r : Sum) (s : State) : (setSum r s).params = s.params := rfl

@[simp] theorem compareFlags_A (reg m : Byte) (s : State) : (compareFlags reg m s).A = s.A := rfl
@[simp] theorem compareFlags_X (reg m : Byte) (s : State) : (compareFlags reg m s).X = s.X := rfl
@[simp] theorem compareFlags_Y (reg m : Byte) (s : State) : (compareFlags reg m s).Y = s.Y := rfl
@[simp] theorem compareFlags_SP (reg m : Byte) (s : State) : (compareFlags reg m s).SP = s.SP := rfl
@[simp] theorem compareFlags_PC (reg m : Byte) (s : State) : (compareFlags reg m s).PC = s.PC := rfl
@[simp] theorem compareFlags_N (reg m : Byte) (s : State) : (compareFlags reg m s).N = (reg - m).msb := rfl
@[simp] theorem compareFlags_V (reg m : Byte) (s : State) : (compareFlags reg m s).V = s.V := rfl
@[simp] theorem compareFlags_D (reg m : Byte) (s : State) : (compareFlags reg m s).D = s.D := rfl
@[simp] theorem compareFlags_I (reg m : Byte) (s : State) : (compareFlags reg m s).I = s.I := rfl
@[simp] theorem compareFlags_Z (reg m : Byte) (s : State) : (compareFlags reg m s).Z = (reg == m) := rfl
@[simp] theorem compareFlags_C (reg m : Byte) (s : State) : (compareFlags reg m s).C = decide (m.toNat ≤ reg.toNat) := rfl
@[simp] theorem compareFlags_pendingNmi (reg m : Byte) (s : State) : (compareFlags reg m s).pendingNmi = s.pendingNmi := rfl
@[simp] theorem compareFlags_pendingIrq (reg m : Byte) (s : State) : (compareFlags reg m s).pendingIrq = s.pendingIrq := rfl
@[simp] theorem compareFlags_inService (reg m : Byte) (s : State) : (compareFlags reg m s).inService = s.inService := rfl
@[simp] theorem compareFlags_mode (reg m : Byte) (s : State) : (compareFlags reg m s).mode = s.mode := rfl
@[simp] theorem compareFlags_bus (reg m : Byte) (s : State) : (compareFlags reg m s).bus = s.bus := rfl
@[simp] theorem compareFlags_params (reg m : Byte) (s : State) : (compareFlags reg m s).params = s.params := rfl

@[simp] theorem shiftFlags_A (r : Byte) (c : Bool) (s : State) : (shiftFlags r c s).A = s.A := rfl
@[simp] theorem shiftFlags_X (r : Byte) (c : Bool) (s : State) : (shiftFlags r c s).X = s.X := rfl
@[simp] theorem shiftFlags_Y (r : Byte) (c : Bool) (s : State) : (shiftFlags r c s).Y = s.Y := rfl
@[simp] theorem shiftFlags_SP (r : Byte) (c : Bool) (s : State) : (shiftFlags r c s).SP = s.SP := rfl
@[simp] theorem shiftFlags_PC (r : Byte) (c : Bool) (s : State) : (shiftFlags r c s).PC = s.PC := rfl
@[simp] theorem shiftFlags_N (r : Byte) (c : Bool) (s : State) : (shiftFlags r c s).N = r.msb := rfl
@[simp] theorem shiftFlags_V (r : Byte) (c : Bool) (s : State) : (shiftFlags r c s).V = s.V := rfl
@[simp] theorem shiftFlags_D (r : Byte) (c : Bool) (s : State) : (shiftFlags r c s).D = s.D := rfl
@[simp] theorem shiftFlags_I (r : Byte) (c : Bool) (s : State) : (shiftFlags r c s).I = s.I := rfl
@[simp] theorem shiftFlags_Z (r : Byte) (c : Bool) (s : State) : (shiftFlags r c s).Z = (r == 0x00#8) := rfl
@[simp] theorem shiftFlags_C (r : Byte) (c : Bool) (s : State) : (shiftFlags r c s).C = c := rfl
@[simp] theorem shiftFlags_pendingNmi (r : Byte) (c : Bool) (s : State) : (shiftFlags r c s).pendingNmi = s.pendingNmi := rfl
@[simp] theorem shiftFlags_pendingIrq (r : Byte) (c : Bool) (s : State) : (shiftFlags r c s).pendingIrq = s.pendingIrq := rfl
@[simp] theorem shiftFlags_inService (r : Byte) (c : Bool) (s : State) : (shiftFlags r c s).inService = s.inService := rfl
@[simp] theorem shiftFlags_mode (r : Byte) (c : Bool) (s : State) : (shiftFlags r c s).mode = s.mode := rfl
@[simp] theorem shiftFlags_bus (r : Byte) (c : Bool) (s : State) : (shiftFlags r c s).bus = s.bus := rfl
@[simp] theorem shiftFlags_params (r : Byte) (c : Bool) (s : State) : (shiftFlags r c s).params = s.params := rfl

@[simp] theorem testFlags_A (m : Byte) (s : State) : (testFlags m s).A = s.A := rfl
@[simp] theorem testFlags_X (m : Byte) (s : State) : (testFlags m s).X = s.X := rfl
@[simp] theorem testFlags_Y (m : Byte) (s : State) : (testFlags m s).Y = s.Y := rfl
@[simp] theorem testFlags_SP (m : Byte) (s : State) : (testFlags m s).SP = s.SP := rfl
@[simp] theorem testFlags_PC (m : Byte) (s : State) : (testFlags m s).PC = s.PC := rfl
@[simp] theorem testFlags_N (m : Byte) (s : State) : (testFlags m s).N = s.N := rfl
@[simp] theorem testFlags_V (m : Byte) (s : State) : (testFlags m s).V = s.V := rfl
@[simp] theorem testFlags_D (m : Byte) (s : State) : (testFlags m s).D = s.D := rfl
@[simp] theorem testFlags_I (m : Byte) (s : State) : (testFlags m s).I = s.I := rfl
@[simp] theorem testFlags_Z (m : Byte) (s : State) : (testFlags m s).Z = (s.A &&& m == 0x00#8) := rfl
@[simp] theorem testFlags_C (m : Byte) (s : State) : (testFlags m s).C = s.C := rfl
@[simp] theorem testFlags_pendingNmi (m : Byte) (s : State) : (testFlags m s).pendingNmi = s.pendingNmi := rfl
@[simp] theorem testFlags_pendingIrq (m : Byte) (s : State) : (testFlags m s).pendingIrq = s.pendingIrq := rfl
@[simp] theorem testFlags_inService (m : Byte) (s : State) : (testFlags m s).inService = s.inService := rfl
@[simp] theorem testFlags_mode (m : Byte) (s : State) : (testFlags m s).mode = s.mode := rfl
@[simp] theorem testFlags_bus (m : Byte) (s : State) : (testFlags m s).bus = s.bus := rfl
@[simp] theorem testFlags_params (m : Byte) (s : State) : (testFlags m s).params = s.params := rfl

@[simp] theorem clearPending_nmi_A (s : State) : (clearPending .nmi s).A = s.A := rfl
@[simp] theorem clearPending_nmi_X (s : State) : (clearPending .nmi s).X = s.X := rfl
@[simp] theorem clearPending_nmi_Y (s : State) : (clearPending .nmi s).Y = s.Y := rfl
@[simp] theorem clearPending_nmi_SP (s : State) : (clearPending .nmi s).SP = s.SP := rfl
@[simp] theorem clearPending_nmi_PC (s : State) : (clearPending .nmi s).PC = s.PC := rfl
@[simp] theorem clearPending_nmi_N (s : State) : (clearPending .nmi s).N = s.N := rfl
@[simp] theorem clearPending_nmi_V (s : State) : (clearPending .nmi s).V = s.V := rfl
@[simp] theorem clearPending_nmi_D (s : State) : (clearPending .nmi s).D = s.D := rfl
@[simp] theorem clearPending_nmi_I (s : State) : (clearPending .nmi s).I = s.I := rfl
@[simp] theorem clearPending_nmi_Z (s : State) : (clearPending .nmi s).Z = s.Z := rfl
@[simp] theorem clearPending_nmi_C (s : State) : (clearPending .nmi s).C = s.C := rfl
@[simp] theorem clearPending_nmi_pendingNmi (s : State) : (clearPending .nmi s).pendingNmi = false := rfl
@[simp] theorem clearPending_nmi_pendingIrq (s : State) : (clearPending .nmi s).pendingIrq = s.pendingIrq := rfl
@[simp] theorem clearPending_nmi_inService (s : State) : (clearPending .nmi s).inService = s.inService := rfl
@[simp] theorem clearPending_nmi_mode (s : State) : (clearPending .nmi s).mode = s.mode := rfl
@[simp] theorem clearPending_nmi_bus (s : State) : (clearPending .nmi s).bus = s.bus := rfl
@[simp] theorem clearPending_nmi_params (s : State) : (clearPending .nmi s).params = s.params := rfl

@[simp] theorem clearPending_irq_A (s : State) : (clearPending .irq s).A = s.A := rfl
@[simp] theorem clearPending_irq_X (s : State) : (clearPending .irq s).X = s.X := rfl
@[simp] theorem clearPending_irq_Y (s : State) : (clearPending .irq s).Y = s.Y := rfl
@[simp] theorem clearPending_irq_SP (s : State) : (clearPending .irq s).SP = s.SP := rfl
@[simp] theorem clearPending_irq_PC (s : State) : (clearPending .irq s).PC = s.PC := rfl
@[simp] theorem clearPending_irq_N (s : State) : (clearPending .irq s).N = s.N := rfl
@[simp] theorem clearPending_irq_V (s : State) : (clearPending .irq s).V = s.V := rfl
@[simp] theorem clearPending_irq_D (s : State) : (clearPending .irq s).D = s.D := rfl
@[simp] theorem clearPending_irq_I (s : State) : (clearPending .irq s).I = s.I := rfl
@[simp] theorem clearPending_irq_Z (s : State) : (clearPending .irq s).Z = s.Z := rfl
@[simp] theorem clearPending_irq_C (s : State) : (clearPending .irq s).C = s.C := rfl
@[simp] theorem clearPending_irq_pendingNmi (s : State) : (clearPending .irq s).pendingNmi = s.pendingNmi := rfl
@[simp] theorem clearPending_irq_pendingIrq (s : State) : (clearPending .irq s).pendingIrq = false := rfl
@[simp] theorem clearPending_irq_inService (s : State) : (clearPending .irq s).inService = s.inService := rfl
@[simp] theorem clearPending_irq_mode (s : State) : (clearPending .irq s).mode = s.mode := rfl
@[simp] theorem clearPending_irq_bus (s : State) : (clearPending .irq s).bus = s.bus := rfl
@[simp] theorem clearPending_irq_params (s : State) : (clearPending .irq s).params = s.params := rfl

@[simp] theorem requestInterrupt_nmi_A (s : State) : (requestInterrupt .nmi s).A = s.A := rfl
@[simp] theorem requestInterrupt_nmi_X (s : State) : (requestInterrupt .nmi s).X = s.X := rfl
@[simp] theorem requestInterrupt_nmi_Y (s : State) : (requestInterrupt .nmi s).Y = s.Y := rfl
@[simp] theorem requestInterrupt_nmi_SP (s : State) : (requestInterrupt .nmi s).SP = s.SP := rfl
@[simp] theorem requestInterrupt_nmi_PC (s : State) : (requestInterrupt .nmi s).PC = s.PC := rfl
@[simp] theorem requestInterrupt_nmi_N (s : State) : (requestInterrupt .nmi s).N = s.N := rfl
@[simp] theorem requestInterrupt_nmi_V (s : State) : (requestInterrupt .nmi s).V = s.V := rfl
@[simp] theorem requestInterrupt_nmi_D (s : State) : (requestInterrupt .nmi s).D = s.D := rfl
@[simp] theorem requestInterrupt_nmi_I (s : State) : (requestInterrupt .nmi s).I = s.I := rfl
@[simp] theorem requestInterrupt_nmi_Z (s : State) : (requestInterrupt .nmi s).Z = s.Z := rfl
@[simp] theorem requestInterrupt_nmi_C (s : State) : (requestInterrupt .nmi s).C = s.C := rfl
@[simp] theorem requestInterrupt_nmi_pendingNmi (s : State) : (requestInterrupt .nmi s).pendingNmi = true := rfl
@[simp] theorem requestInterrupt_nmi_pendingIrq (s : State) : (requestInterrupt .nmi s).pendingIrq = s.pendingIrq := rfl
@[simp] theorem requestInterrupt_nmi_inService (s : State) : (requestInterrupt .nmi s).inService = s.inService := rfl
@[simp] theorem requestInterrupt_nmi_mode (s : State) : (requestInterrupt .nmi s).mode = s.mode := rfl
@[simp] theorem requestInterrupt_nmi_bus (s : State) : (requestInterrupt .nmi s).bus = s.bus := rfl
@[simp] theorem requestInterrupt_nmi_params (s : State) : (requestInterrupt .nmi s).params = s.params := rfl

@[simp] theorem requestInterrupt_irq_A (s : State) : (requestInterrupt .irq s).A = s.A := rfl
@[simp] theorem requestInterrupt_irq_X (s : State) : (requestInterrupt .irq s).X = s.X := rfl
@[simp] theorem requestInterrupt_irq_Y (s : State) : (requestInterrupt .irq s).Y = s.Y := rfl
@[simp] theorem requestInterrupt_irq_SP (s : State) : (requestInterrupt .irq s).SP = s.SP := rfl
@[simp] theorem requestInterrupt_irq_PC (s : State) : (requestInterrupt .irq s).PC = s.PC := rfl
@[simp] theorem requestInterrupt_irq_N (s : State) : (requestInterrupt .irq s).N = s.N := rfl
@[simp] theorem requestInterrupt_irq_V (s : State) : (requestInterrupt .irq s).V = s.V := rfl
@[simp] theorem requestInterrupt_irq_D (s : State) : (requestInterrupt .irq s).D = s.D := rfl
@[simp] theorem requestInterrupt_irq_I (s : State) : (requestInterrupt .irq s).I = s.I := rfl
@[simp] theorem requestInterrupt_irq_Z (s : State) : (requestInterrupt .irq s).Z = s.Z := rfl
@[simp] theorem requestInterrupt_irq_C (s : State) : (requestInterrupt .irq s).C = s.C := rfl
@[simp] theorem requestInterrupt_irq_pendingNmi (s : State) : (requestInterrupt .irq s).pendingNmi = s.pendingNmi := rfl
@[simp] theorem requestInterrupt_irq_pendingIrq (s : State) : (requestInterrupt .irq s).pendingIrq = true := rfl
@[simp] theorem requestInterrupt_irq_inService (s : State) : (requestInterrupt .irq s).inService = s.inService := rfl
@[simp] theorem requestInterrupt_irq_mode (s : State) : (requestInterrupt .irq s).mode = s.mode := rfl
@[simp] theorem requestInterrupt_irq_bus (s : State) : (requestInterrupt .irq s).bus = s.bus := rfl
@[simp] theorem requestInterrupt_irq_params (s : State) : (requestInterrupt .irq s).params = s.params := rfl

@[simp] theorem resetRegisters_A (d : Draws) (s : State) : (resetRegisters d s).A = d.A := rfl
@[simp] theorem resetRegisters_X (d : Draws) (s : State) : (resetRegisters d s).X = d.X := rfl
@[simp] theorem resetRegisters_Y (d : Draws) (s : State) : (resetRegisters d s).Y = d.Y := rfl
@[simp] theorem resetRegisters_SP (d : Draws) (s : State) : (resetRegisters d s).SP = d.SP := rfl
@[simp] theorem resetRegisters_PC (d : Draws) (s : State) : (resetRegisters d s).PC = s.PC := rfl
@[simp] theorem resetRegisters_N (d : Draws) (s : State) : (resetRegisters d s).N = d.N := rfl
@[simp] theorem resetRegisters_V (d : Draws) (s : State) : (resetRegisters d s).V = d.V := rfl
@[simp] theorem resetRegisters_D (d : Draws) (s : State) : (resetRegisters d s).D = false := rfl
@[simp] theorem resetRegisters_I (d : Draws) (s : State) : (resetRegisters d s).I = true := rfl
@[simp] theorem resetRegisters_Z (d : Draws) (s : State) : (resetRegisters d s).Z = d.Z := rfl
@[simp] theorem resetRegisters_C (d : Draws) (s : State) : (resetRegisters d s).C = d.C := rfl
@[simp] theorem resetRegisters_pendingNmi (d : Draws) (s : State) : (resetRegisters d s).pendingNmi = false := rfl
@[simp] theorem resetRegisters_pendingIrq (d : Draws) (s : State) : (resetRegisters d s).pendingIrq = false := rfl
@[simp] theorem resetRegisters_inService (d : Draws) (s : State) : (resetRegisters d s).inService = false := rfl
@[simp] theorem resetRegisters_mode (d : Draws) (s : State) : (resetRegisters d s).mode = .running := rfl
@[simp] theorem resetRegisters_bus (d : Draws) (s : State) : (resetRegisters d s).bus = s.bus := rfl
@[simp] theorem resetRegisters_params (d : Draws) (s : State) : (resetRegisters d s).params = s.params := rfl

end Sys2Proof.Machine
end

