-- ==== Sys2Proof/Laws/Ops.lean ====
section
/-! SUPPORT. One lemma for each shared operation over memory and the stack, that says once everything it can do:
what it answers when its accesses are accepted, and what is true whenever it answers. -/

namespace Sys2Proof.Machine

section Except

variable {ε α β : Type}

/-- A composed operation answers when both parts do. -/
theorem bind_eq_ok {x : Except ε α} {f : α → Except ε β} {b : β} :
    (x >>= f) = .ok b ↔ ∃ a, x = .ok a ∧ f a = .ok b := by
  cases x with
  | ok a => exact ⟨fun h => ⟨a, rfl, h⟩, by rintro ⟨_, ⟨⟩, h⟩; exact h⟩
  | error e => exact ⟨nofun, nofun⟩

/-- A composed operation fails with its first failing part. -/
theorem bind_eq_error {x : Except ε α} {f : α → Except ε β} {e : ε} :
    (x >>= f) = .error e ↔ x = .error e ∨ ∃ a, x = .ok a ∧ f a = .error e := by
  cases x with
  | ok a => exact ⟨fun h => .inr ⟨a, rfl, h⟩, by rintro (⟨⟨⟩⟩ | ⟨_, ⟨⟩, h⟩); exact h⟩
  | error d => exact ⟨fun h => .inl (by cases h; rfl), by rintro (⟨⟨⟩⟩ | ⟨_, ⟨⟩, _⟩); rfl⟩

@[simp] theorem ok_bind (a : α) (f : α → Except ε β) : (Except.ok a >>= f) = f a := rfl

@[simp] theorem error_bind (e : ε) (f : α → Except ε β) : ((Except.error e : Except ε α) >>= f) = .error e := rfl

@[simp] theorem pure_eq (a : α) : (pure a : Except ε α) = .ok a := rfl

end Except

@[simp] theorem answer_ok (s : State) : answer (.ok s) = .next s := rfl
@[simp] theorem answer_error (f : Fault) : answer (.error f) = .fault f := rfl

theorem answer_eq_next {r : Except Fault State} {t : State} : answer r = .next t ↔ r = .ok t := by
  cases r with
  | ok s => exact ⟨fun h => by cases h; rfl, fun h => by cases h; rfl⟩
  | error f => exact ⟨nofun, nofun⟩

theorem answer_eq_fault {r : Except Fault State} {f : Fault} : answer r = .fault f ↔ r = .error f := by
  cases r with
  | ok s => exact ⟨nofun, nofun⟩
  | error g => exact ⟨fun h => by cases h; rfl, fun h => by cases h; rfl⟩

theorem answer_ne_refused (r : Except Fault State) (q : Refusal) : answer r ≠ .refused q := by
  cases r <;> exact nofun

/-! ### One byte -/

theorem readByte_eq_ok {a : Word} {s : State} {b : Byte} : readByte a s = .ok b ↔ s.bus.read a = .ok b := by
  unfold readByte
  cases s.bus.read a <;> simp

theorem readByte_eq_error {a : Word} {s : State} {f : Fault} :
    readByte a s = .error f ↔ ∃ r, s.bus.read a = .error r ∧ f = .busFault r a := by
  unfold readByte
  cases s.bus.read a <;> simp [eq_comm]

theorem writeByte_eq_ok {a : Word} {v : Byte} {s t : State} :
    writeByte a v s = .ok t ↔ ∃ m, s.bus.write a v = .ok m ∧ t = { s with bus := m } := by
  unfold writeByte
  cases s.bus.write a v <;> simp [eq_comm]

theorem writeByte_eq_error {a : Word} {v : Byte} {s : State} {f : Fault} :
    writeByte a v s = .error f ↔ ∃ r, s.bus.write a v = .error r ∧ f = .busFault r a := by
  unfold writeByte
  cases s.bus.write a v <;> simp [eq_comm]

theorem readByte_ok {a : Word} {s : State} {b : Byte} (h : s.bus.read a = .ok b) : readByte a s = .ok b :=
  readByte_eq_ok.2 h

theorem readByte_error {a : Word} {s : State} {r : Reason} (h : s.bus.read a = .error r) :
    readByte a s = .error (.busFault r a) := readByte_eq_error.2 ⟨r, h, rfl⟩

theorem writeByte_ok {a : Word} {v : Byte} {s : State} {m : AddressSpace} (h : s.bus.write a v = .ok m) :
    writeByte a v s = .ok { s with bus := m } := writeByte_eq_ok.2 ⟨m, h, rfl⟩

theorem writeByte_error {a : Word} {v : Byte} {s : State} {r : Reason} (h : s.bus.write a v = .error r) :
    writeByte a v s = .error (.busFault r a) := writeByte_eq_error.2 ⟨r, h, rfl⟩

/-- A read depends on the address space alone. -/
theorem readByte_congr {a : Word} {s t : State} (h : s.bus = t.bus) : readByte a s = readByte a t := by
  unfold readByte; rw [h]

/-! ### Words -/

theorem read16_eq_ok {a : Word} {s : State} {w : Word} :
    read16 a s = .ok w ↔
      ∃ lo hi, s.bus.read a = .ok lo ∧ s.bus.read (a + 1#16) = .ok hi ∧ w = concat16 hi lo := by
  simp only [read16, bind_eq_ok, readByte_eq_ok, pure_eq, Except.ok.injEq]
  constructor
  · rintro ⟨lo, h1, hi, h2, rfl⟩; exact ⟨lo, hi, h1, h2, rfl⟩
  · rintro ⟨lo, hi, h1, h2, rfl⟩; exact ⟨lo, h1, hi, h2, rfl⟩

theorem read16_ok {a : Word} {s : State} {lo hi : Byte} (h1 : s.bus.read a = .ok lo)
    (h2 : s.bus.read (a + 1#16) = .ok hi) : read16 a s = .ok (concat16 hi lo) :=
  read16_eq_ok.2 ⟨lo, hi, h1, h2, rfl⟩

theorem read16_error_low {a : Word} {s : State} {r : Reason} (h : s.bus.read a = .error r) :
    read16 a s = .error (.busFault r a) := by
  rw [read16, readByte_error h]; rfl

theorem read16_error_high {a : Word} {s : State} {lo : Byte} {r : Reason} (h1 : s.bus.read a = .ok lo)
    (h2 : s.bus.read (a + 1#16) = .error r) : read16 a s = .error (.busFault r (a + 1#16)) := by
  rw [read16, readByte_ok h1, ok_bind, readByte_error h2]; rfl

theorem read16zp_ok {z : Byte} {s : State} {lo hi : Byte} (h1 : s.bus.read (zext16 z) = .ok lo)
    (h2 : s.bus.read (zext16 (z + 1#8)) = .ok hi) : read16zp z s = .ok (concat16 hi lo) := by
  rw [read16zp, readByte_ok h1, ok_bind, readByte_ok h2]; rfl

theorem read16zp_error_low {z : Byte} {s : State} {r : Reason} (h : s.bus.read (zext16 z) = .error r) :
    read16zp z s = .error (.busFault r (zext16 z)) := by
  rw [read16zp, readByte_error h]; rfl

theorem read16zp_error_high {z : Byte} {s : State} {lo : Byte} {r : Reason}
    (h1 : s.bus.read (zext16 z) = .ok lo) (h2 : s.bus.read (zext16 (z + 1#8)) = .error r) :
    read16zp z s = .error (.busFault r (zext16 (z + 1#8))) := by
  rw [read16zp, readByte_ok h1, ok_bind, readByte_error h2]; rfl

/-! ### The stack -/

theorem push_ok {v : Byte} {s : State} {m : AddressSpace} (h : s.bus.write (stackAddr s.SP) v = .ok m) :
    push v s = .ok { s with bus := m, SP := s.SP - 1#8 } := by
  rw [push, writeByte_ok h]; rfl

theorem push_error {v : Byte} {s : State} {r : Reason} (h : s.bus.write (stackAddr s.SP) v = .error r) :
    push v s = .error (.busFault r (stackAddr s.SP)) := by
  rw [push, writeByte_error h]; rfl

theorem push_eq_ok {v : Byte} {s t : State} :
    push v s = .ok t ↔
      ∃ m, s.bus.write (stackAddr s.SP) v = .ok m ∧ t = { s with bus := m, SP := s.SP - 1#8 } := by
  simp only [push, bind_eq_ok, writeByte_eq_ok, pure_eq, Except.ok.injEq]
  constructor
  · rintro ⟨_, ⟨m, h, rfl⟩, rfl⟩; exact ⟨m, h, rfl⟩
  · rintro ⟨m, h, rfl⟩; exact ⟨_, ⟨m, h, rfl⟩, rfl⟩

theorem push_eq_error {v : Byte} {s : State} {f : Fault} :
    push v s = .error f ↔ ∃ r, s.bus.write (stackAddr s.SP) v = .error r ∧ f = .busFault r (stackAddr s.SP) := by
  simp only [push, bind_eq_error, writeByte_eq_error, pure_eq, reduceCtorEq, and_false, exists_false, or_false]

theorem pull_ok {s : State} {b : Byte} (h : s.bus.read (stackAddr (s.SP + 1#8)) = .ok b) :
    pull s = .ok (b, { s with SP := s.SP + 1#8 }) := by
  rw [pull, readByte_ok h]; rfl

theorem pull_error {s : State} {r : Reason} (h : s.bus.read (stackAddr (s.SP + 1#8)) = .error r) :
    pull s = .error (.busFault r (stackAddr (s.SP + 1#8))) := by
  rw [pull, readByte_error h]; rfl

theorem pull_eq_ok {s : State} {p : Byte × State} :
    pull s = .ok p ↔
      ∃ b, s.bus.read (stackAddr (s.SP + 1#8)) = .ok b ∧ p = (b, { s with SP := s.SP + 1#8 }) := by
  simp only [pull, bind_eq_ok, readByte_eq_ok, pure_eq, Except.ok.injEq]
  exact ⟨fun ⟨b, h, e⟩ => ⟨b, h, e.symm⟩, fun ⟨b, h, e⟩ => ⟨b, h, e.symm⟩⟩

theorem pull_eq_error {s : State} {f : Fault} :
    pull s = .error f ↔
      ∃ r, s.bus.read (stackAddr (s.SP + 1#8)) = .error r ∧ f = .busFault r (stackAddr (s.SP + 1#8)) := by
  simp only [pull, bind_eq_error, readByte_eq_error, pure_eq, reduceCtorEq, and_false, exists_false, or_false]

/-- Two slots below a slot, and two above it. -/
theorem sp_sub_sub (b : Byte) : b - 1#8 - 1#8 = b - 2#8 := by bv_omega
theorem sp_sub_sub_sub (b : Byte) : b - 2#8 - 1#8 = b - 3#8 := by bv_omega
theorem sp_add_add (b : Byte) : b + 1#8 + 1#8 = b + 2#8 := by bv_omega
theorem sp_add_add_add (b : Byte) : b + 2#8 + 1#8 = b + 3#8 := by bv_omega

@[simp] theorem stackAddr_toNat (b : Byte) : (stackAddr b).toNat = 256 + b.toNat := by
  simp [stackAddr, stackPage]

theorem stackAddr_inj {a b : Byte} (h : stackAddr a = stackAddr b) : a = b := by
  have := congrArg BitVec.toNat h
  simp only [stackAddr_toNat] at this
  exact BitVec.eq_of_toNat_eq (by omega)

/-- The slot whose number the statements give. -/
theorem eq_stackAddr {a : Word} {b : Byte} (h : a.toNat = 256 + b.toNat) : a = stackAddr b :=
  BitVec.eq_of_toNat_eq (by rw [h, stackAddr_toNat])

theorem pushWord_ok {w : Word} {s : State} {m n : AddressSpace}
    (h1 : s.bus.write (stackAddr s.SP) (highByte w) = .ok m)
    (h2 : m.write (stackAddr (s.SP - 1#8)) (lowByte w) = .ok n) :
    pushWord w s = .ok { s with bus := n, SP := s.SP - 2#8 } := by
  rw [pushWord, push_ok h1, ok_bind, push_ok h2]
  simp only [sp_sub_sub]

theorem pushWord_eq_ok {w : Word} {s t : State} :
    pushWord w s = .ok t ↔ ∃ m n, s.bus.write (stackAddr s.SP) (highByte w) = .ok m ∧
      m.write (stackAddr (s.SP - 1#8)) (lowByte w) = .ok n ∧ t = { s with bus := n, SP := s.SP - 2#8 } := by
  constructor
  · intro h
    obtain ⟨u, hu, h⟩ := bind_eq_ok.1 h
    obtain ⟨m, h1, rfl⟩ := push_eq_ok.1 hu
    obtain ⟨n, h2, rfl⟩ := push_eq_ok.1 h
    exact ⟨m, n, h1, h2, by simp only [sp_sub_sub]⟩
  · rintro ⟨m, n, h1, h2, rfl⟩
    exact pushWord_ok h1 h2

theorem pushWord_error_high {w : Word} {s : State} {r : Reason}
    (h : s.bus.write (stackAddr s.SP) (highByte w) = .error r) :
    pushWord w s = .error (.busFault r (stackAddr s.SP)) := by
  rw [pushWord, push_error h]; rfl

theorem pushWord_error_low {w : Word} {s : State} {m : AddressSpace} {r : Reason}
    (h1 : s.bus.write (stackAddr s.SP) (highByte w) = .ok m)
    (h2 : m.write (stackAddr (s.SP - 1#8)) (lowByte w) = .error r) :
    pushWord w s = .error (.busFault r (stackAddr (s.SP - 1#8))) := by
  rw [pushWord, push_ok h1, ok_bind, push_error h2]

theorem pullWord_ok {s : State} {lo hi : Byte} (h1 : s.bus.read (stackAddr (s.SP + 1#8)) = .ok lo)
    (h2 : s.bus.read (stackAddr (s.SP + 2#8)) = .ok hi) :
    pullWord s = .ok (concat16 hi lo, { s with SP := s.SP + 2#8 }) := by
  rw [pullWord, pull_ok h1, ok_bind]
  simp only
  rw [pull_ok (b := hi) (by simpa only [sp_add_add] using h2)]
  simp only [sp_add_add, ok_bind, pure_eq]

theorem pullWord_error_low {s : State} {r : Reason} (h : s.bus.read (stackAddr (s.SP + 1#8)) = .error r) :
    pullWord s = .error (.busFault r (stackAddr (s.SP + 1#8))) := by
  rw [pullWord, pull_error h]; rfl

theorem pullWord_error_high {s : State} {lo : Byte} {r : Reason}
    (h1 : s.bus.read (stackAddr (s.SP + 1#8)) = .ok lo)
    (h2 : s.bus.read (stackAddr (s.SP + 2#8)) = .error r) :
    pullWord s = .error (.busFault r (stackAddr (s.SP + 2#8))) := by
  rw [pullWord, pull_ok h1, ok_bind]
  simp only
  rw [pull_error (r := r) (by simpa only [sp_add_add] using h2)]
  simp only [sp_add_add, error_bind]

theorem pullWord_eq_ok {s : State} {p : Word × State} :
    pullWord s = .ok p ↔ ∃ lo hi, s.bus.read (stackAddr (s.SP + 1#8)) = .ok lo ∧
      s.bus.read (stackAddr (s.SP + 2#8)) = .ok hi ∧ p = (concat16 hi lo, { s with SP := s.SP + 2#8 }) := by
  constructor
  · intro h
    obtain ⟨x, hx, h⟩ := bind_eq_ok.1 h
    obtain ⟨lo, h1, rfl⟩ := pull_eq_ok.1 hx
    obtain ⟨y, hy, h⟩ := bind_eq_ok.1 h
    obtain ⟨hi, h2, rfl⟩ := pull_eq_ok.1 hy
    simp only [sp_add_add] at h2 h
    exact ⟨lo, hi, h1, h2, (Except.ok.inj h).symm⟩
  · rintro ⟨lo, hi, h1, h2, rfl⟩
    exact pullWord_ok h1 h2

/-! ### Taking an interrupt or BRK -/

/-- The P image depends on the flags alone. -/
theorem pImage_congr {b : Bool} {s t : State}
    (h : s.N = t.N ∧ s.V = t.V ∧ s.D = t.D ∧ s.I = t.I ∧ s.Z = t.Z ∧ s.C = t.C) : pImage b s = pImage b t := by
  unfold pImage
  obtain ⟨h1, h2, h3, h4, h5, h6⟩ := h
  rw [h1, h2, h3, h4, h5, h6]

/-- The state a vectored entry leaves: three slots written, SP three lower, I set, D cleared if
INTERRUPT_CLEARS_D, PC from the vector. -/
theorem enterVector_ok {vector : Word} {brk : Bool} {s : State} {b1 b2 b3 : AddressSpace} {lo hi : Byte}
    (h1 : s.bus.write (stackAddr s.SP) (highByte s.PC) = .ok b1)
    (h2 : b1.write (stackAddr (s.SP - 1#8)) (lowByte s.PC) = .ok b2)
    (h3 : b2.write (stackAddr (s.SP - 2#8)) (pImage brk s) = .ok b3)
    (h4 : b3.read vector = .ok lo) (h5 : b3.read (vector + 1#16) = .ok hi) :
    enterVector vector brk s = .ok { s with
      bus := b3, SP := s.SP - 3#8, PC := concat16 hi lo, I := true, D := s.D && !s.params.interruptClearsD } := by
  rw [enterVector, pushWord_ok h1 h2, ok_bind]
  rw [push_ok (m := b3) (by exact h3), ok_bind, read16_ok h4 h5, ok_bind]
  simp only [sp_sub_sub_sub, pure_eq, Except.ok.injEq, State.mk.injEq, true_and, and_true]
  cases s.D <;> cases s.params.interruptClearsD <;> rfl

/-- Whenever a vectored entry answers, its accesses were accepted and this is the state. -/
theorem enterVector_eq_ok {vector : Word} {brk : Bool} {s t : State} :
    enterVector vector brk s = .ok t ↔ ∃ b1 b2 b3 lo hi,
      s.bus.write (stackAddr s.SP) (highByte s.PC) = .ok b1 ∧
      b1.write (stackAddr (s.SP - 1#8)) (lowByte s.PC) = .ok b2 ∧
      b2.write (stackAddr (s.SP - 2#8)) (pImage brk s) = .ok b3 ∧
      b3.read vector = .ok lo ∧ b3.read (vector + 1#16) = .ok hi ∧
      t = { s with
        bus := b3, SP := s.SP - 3#8, PC := concat16 hi lo, I := true, D := s.D && !s.params.interruptClearsD } := by
  constructor
  · intro h
    obtain ⟨x, hx, g⟩ := bind_eq_ok.1 h
    obtain ⟨b1, b2, h1, h2, rfl⟩ := pushWord_eq_ok.1 hx
    obtain ⟨y, hy, g⟩ := bind_eq_ok.1 g
    obtain ⟨b3, h3, rfl⟩ := push_eq_ok.1 hy
    obtain ⟨pc, hpc, g⟩ := bind_eq_ok.1 g
    obtain ⟨lo, hi, h4, h5, rfl⟩ := read16_eq_ok.1 hpc
    exact ⟨b1, b2, b3, lo, hi, h1, h2, h3, h4, h5,
      Except.ok.inj (h.symm.trans (enterVector_ok h1 h2 h3 h4 h5))⟩
  · rintro ⟨b1, b2, b3, lo, hi, h1, h2, h3, h4, h5, rfl⟩
    exact enterVector_ok h1 h2 h3 h4 h5

/-- Whenever an interrupt entry answers, a vectored entry did, and in_service, the mode and the request follow. -/
theorem enterInterrupt_eq_ok {k : Interrupt} {s t : State} :
    enterInterrupt k s = .ok t ↔ ∃ u, enterVector (vectorOf k) false s = .ok u ∧
      t = clearPending k { u with inService := true, mode := .running } := by
  simp only [enterInterrupt, bind_eq_ok, pure_eq, Except.ok.injEq]
  exact ⟨fun ⟨u, h, e⟩ => ⟨u, h, e.symm⟩, fun ⟨u, h, e⟩ => ⟨u, h, e.symm⟩⟩

/-- The three things the check does. -/
theorem interruptCheck_cases (s : State) :
    (nmiDue s = true ∧ interruptCheck s = enterInterrupt .nmi s) ∨
    (nmiDue s = false ∧ irqDue s = true ∧ interruptCheck s = enterInterrupt .irq s) ∨
    (nmiDue s = false ∧ irqDue s = false ∧ interruptCheck s = .ok s) := by
  unfold interruptCheck
  cases h1 : nmiDue s <;> cases h2 : irqDue s <;> simp

/-- RTI: the flags, the pulled PC, SP three higher and in_service cleared. -/
theorem returnFromInterrupt_ok {s : State} {p lo hi : Byte}
    (h1 : s.bus.read (stackAddr (s.SP + 1#8)) = .ok p) (h2 : s.bus.read (stackAddr (s.SP + 2#8)) = .ok lo)
    (h3 : s.bus.read (stackAddr (s.SP + 3#8)) = .ok hi) :
    returnFromInterrupt s = .ok { loadFlags p s with
      SP := s.SP + 3#8, PC := concat16 hi lo, inService := false } := by
  rw [returnFromInterrupt, pull_ok h1, ok_bind]
  simp only
  rw [pullWord_ok (lo := lo) (hi := hi) (by simpa [sp_add_add] using h2)
    (by simpa [BitVec.add_assoc] using h3)]
  simp [BitVec.add_assoc, loadFlags]

/-! ### What every operation does to the address space -/

theorem push_written {v : Byte} {s t : State} (h : push v s = .ok t) :
    Written [stackAddr s.SP] s.bus t.bus := by
  obtain ⟨m, hw, rfl⟩ := push_eq_ok.1 h
  exact .one hw

theorem pushWord_written {w : Word} {s t : State} (h : pushWord w s = .ok t) :
    Written [stackAddr s.SP, stackAddr (s.SP - 1#8)] s.bus t.bus := by
  obtain ⟨m, n, h1, h2, rfl⟩ := pushWord_eq_ok.1 h
  exact ⟨_, m, h1, .one h2⟩

theorem enterVector_written {vector : Word} {brk : Bool} {s t : State} (h : enterVector vector brk s = .ok t) :
    Written [stackAddr s.SP, stackAddr (s.SP - 1#8), stackAddr (s.SP - 2#8)] s.bus t.bus := by
  obtain ⟨b1, b2, b3, lo, hi, h1, h2, h3, -, -, rfl⟩ := enterVector_eq_ok.1 h
  exact ⟨_, b1, h1, _, b2, h2, .one h3⟩

theorem enterInterrupt_written {k : Interrupt} {s t : State} (h : enterInterrupt k s = .ok t) :
    Written [stackAddr s.SP, stackAddr (s.SP - 1#8), stackAddr (s.SP - 2#8)] s.bus t.bus := by
  obtain ⟨u, hu, rfl⟩ := enterInterrupt_eq_ok.1 h
  have := enterVector_written hu
  cases k <;> exact this

theorem interruptCheck_chain {s t : State} (h : interruptCheck s = .ok t) : WriteChain 3 s.bus t.bus := by
  obtain ⟨-, e⟩ | ⟨-, -, e⟩ | ⟨-, -, e⟩ := interruptCheck_cases s
  · exact (enterInterrupt_written (e.symm.trans h)).chain
  · exact (enterInterrupt_written (e.symm.trans h)).chain
  · cases e.symm.trans h; exact .refl _

end Sys2Proof.Machine
end

