-- ==== Sys2Proof/Laws/Operands.lean ====
section
/-! SUPPORT. One lemma for each operand operation: what it answers when its accesses are accepted, and which fault
it gives when one is not. -/

namespace Sys2Proof.Machine

theorem ea_zeroPage (z : Byte) (s : State) : ea (.zeroPage z) s = .ok (zext16 z) := rfl

/-- A zero-page pointer (40_addressing.md R140 to R142), of any zero-page address. -/
theorem ea_zeroPageIndirect (z : Byte) (s : State) : ea (.zeroPageIndirect z) s = read16zp z s := rfl
theorem ea_indirectX (z : Byte) (s : State) : ea (.indirectX z) s = read16zp (z + s.X) s := rfl
theorem ea_indirect (w : Word) (s : State) : ea (.indirect w) s = read16 w s := rfl
theorem ea_absoluteIndexedIndirect (w : Word) (s : State) :
    ea (.absoluteIndexedIndirect w) s = read16 (w + zext16 s.X) s := rfl

theorem readSrc_mem_ok {m : MemMode} {s : State} {a : Word} {b : Byte} (h : ea m s = .ok a)
    (h2 : s.bus.read a = .ok b) : readSrc (.mem m) s = .ok b := by
  rw [readSrc, h, ok_bind, readByte_ok h2]

theorem readSrc_mem_error_ea {m : MemMode} {s : State} {f : Fault} (h : ea m s = .error f) :
    readSrc (.mem m) s = .error f := by
  rw [readSrc, h, error_bind]

theorem readSrc_mem_error {m : MemMode} {s : State} {a : Word} {r : Reason} (h : ea m s = .ok a)
    (h2 : s.bus.read a = .error r) : readSrc (.mem m) s = .error (.busFault r a) := by
  rw [readSrc, h, ok_bind, readByte_error h2]

theorem writeMem_ok {m : MemMode} {v : Byte} {s : State} {a : Word} {n : AddressSpace} (h : ea m s = .ok a)
    (h2 : s.bus.write a v = .ok n) : writeMem m v s = .ok { s with bus := n } := by
  rw [writeMem, h, ok_bind, writeByte_ok h2]

theorem writeMem_error_ea {m : MemMode} {v : Byte} {s : State} {f : Fault} (h : ea m s = .error f) :
    writeMem m v s = .error f := by
  rw [writeMem, h, error_bind]

theorem writeMem_error {m : MemMode} {v : Byte} {s : State} {a : Word} {r : Reason} (h : ea m s = .ok a)
    (h2 : s.bus.write a v = .error r) : writeMem m v s = .error (.busFault r a) := by
  rw [writeMem, h, ok_bind, writeByte_error h2]

/-- Whenever a store answers, it wrote its byte at its effective address and did nothing else. -/
theorem writeMem_eq_ok {m : MemMode} {v : Byte} {s t : State} :
    writeMem m v s = .ok t ↔
      ∃ a n, ea m s = .ok a ∧ s.bus.write a v = .ok n ∧ t = { s with bus := n } := by
  simp only [writeMem, bind_eq_ok, writeByte_eq_ok]
  constructor
  · rintro ⟨a, h, n, h2, rfl⟩; exact ⟨a, n, h, h2, rfl⟩
  · rintro ⟨a, n, h, h2, rfl⟩; exact ⟨a, h, n, h2, rfl⟩

section Rmw

variable {result : Byte → State → Byte} {flags : Byte → State → State} {s : State}

theorem rmw_acc : rmw result flags .acc s = .ok { flags s.A s with A := result s.A s } := rfl

theorem rmw_mem_ok {m : MemMode} {a : Word} {b : Byte} {n : AddressSpace} (hf : (flags b s).bus = s.bus)
    (h : ea m s = .ok a) (h2 : s.bus.read a = .ok b) (h3 : s.bus.write a (result b s) = .ok n) :
    rmw result flags (.mem m) s = .ok { flags b s with bus := n } := by
  simp only [rmw, h, ok_bind, readByte_ok h2]
  exact writeByte_ok (by rw [hf]; exact h3)

theorem rmw_mem_error_ea {m : MemMode} {f : Fault} (h : ea m s = .error f) :
    rmw result flags (.mem m) s = .error f := by
  simp only [rmw, h, error_bind]

theorem rmw_mem_error_read {m : MemMode} {a : Word} {r : Reason} (h : ea m s = .ok a)
    (h2 : s.bus.read a = .error r) : rmw result flags (.mem m) s = .error (.busFault r a) := by
  simp only [rmw, h, ok_bind, readByte_error h2, error_bind]

theorem rmw_mem_error_write {m : MemMode} {a : Word} {b : Byte} {r : Reason} (hf : (flags b s).bus = s.bus)
    (h : ea m s = .ok a) (h2 : s.bus.read a = .ok b) (h3 : s.bus.write a (result b s) = .error r) :
    rmw result flags (.mem m) s = .error (.busFault r a) := by
  simp only [rmw, h, ok_bind, readByte_ok h2]
  exact writeByte_error (by rw [hf]; exact h3)

/-- Whenever a memory read-modify-write answers, it read once and wrote once, at one address. -/
theorem rmw_mem_eq_ok {m : MemMode} {t : State} (hf : ∀ b, (flags b s).bus = s.bus) :
    rmw result flags (.mem m) s = .ok t ↔ ∃ a b n, ea m s = .ok a ∧ s.bus.read a = .ok b ∧
      s.bus.write a (result b s) = .ok n ∧ t = { flags b s with bus := n } := by
  simp only [rmw, bind_eq_ok, readByte_eq_ok, writeByte_eq_ok, hf]
  constructor
  · rintro ⟨a, h, b, h2, n, h3, rfl⟩; exact ⟨a, b, n, h, h2, h3, rfl⟩
  · rintro ⟨a, b, n, h, h2, h3, rfl⟩; exact ⟨a, h, b, h2, n, h3, rfl⟩

end Rmw

/-! ### Where a fault comes from -/

/-- The fault names an access that the address space answers Unimplemented once at most `n` accepted writes have
been made. -/
def FaultOf (n : Nat) (m : AddressSpace) (f : Fault) : Prop :=
  ∃ (r : Reason) (a : Word) (k : AddressSpace), f = .busFault r a ∧ WriteChain n m k ∧
    (k.read a = .error r ∨ ∃ v : Byte, k.write a v = .error r)

/-- A fault of an address space reached by writes is one of the space before them. -/
theorem FaultOf.after {n p : Nat} {m k : AddressSpace} {f : Fault} (c : WriteChain n m k) (h : FaultOf p k f) :
    FaultOf (n + p) m f := by
  obtain ⟨r, a, j, rfl, hc, h⟩ := h
  exact ⟨r, a, j, rfl, c.trans hc, h⟩

theorem FaultOf.mono {n p : Nat} {m : AddressSpace} {f : Fault} (h : FaultOf n m f) (hn : n ≤ p := by decide) :
    FaultOf p m f :=
  let ⟨r, a, k, e, c, h⟩ := h
  ⟨r, a, k, e, c.mono hn, h⟩

/-- On the two address spaces the spec describes the access was already refused before the writes. -/
theorem FaultOf.before {n : Nat} {m : AddressSpace} {r : Reason} {a : Word} (hx : m.isExternal = false)
    (h : FaultOf n m (.busFault r a)) : m.read a = .error r ∨ ∃ v : Byte, m.write a v = .error r := by
  obtain ⟨_, _, k, e, c, h⟩ := h
  cases e
  exact h.imp (c.read_error hx a r).1 fun ⟨v, hv⟩ => ⟨v, (c.write_error hx a v r).1 hv⟩

section Fault

variable {n : Nat}

theorem readByte_fault {a : Word} {s : State} {f : Fault} (h : readByte a s = .error f) : FaultOf n s.bus f := by
  obtain ⟨r, hr, rfl⟩ := readByte_eq_error.1 h
  exact ⟨r, a, _, rfl, .refl _, .inl hr⟩

theorem writeByte_fault {a : Word} {v : Byte} {s : State} {f : Fault} (h : writeByte a v s = .error f) :
    FaultOf n s.bus f := by
  obtain ⟨r, hr, rfl⟩ := writeByte_eq_error.1 h
  exact ⟨r, a, _, rfl, .refl _, .inr ⟨v, hr⟩⟩

theorem read16_fault {a : Word} {s : State} {f : Fault} (h : read16 a s = .error f) : FaultOf n s.bus f := by
  obtain h | ⟨lo, -, h⟩ := bind_eq_error.1 h
  · exact readByte_fault h
  · obtain h | ⟨hi, -, h⟩ := bind_eq_error.1 h
    · exact readByte_fault h
    · cases h

theorem read16zp_fault {z : Byte} {s : State} {f : Fault} (h : read16zp z s = .error f) : FaultOf n s.bus f := by
  obtain h | ⟨lo, -, h⟩ := bind_eq_error.1 h
  · exact readByte_fault h
  · obtain h | ⟨hi, -, h⟩ := bind_eq_error.1 h
    · exact readByte_fault h
    · cases h

theorem ea_fault {m : MemMode} {s : State} {f : Fault} (h : ea m s = .error f) : FaultOf n s.bus f := by
  cases m with
  | zeroPage | zeroPageX | zeroPageY | absolute | absoluteX | absoluteY => cases h
  | zeroPageIndirect z => exact read16zp_fault h
  | indirectX z => exact read16zp_fault h
  | indirectY z =>
    obtain h | ⟨w, -, h⟩ := bind_eq_error.1 h
    · exact read16zp_fault h
    · cases h
  | indirect w => exact read16_fault h
  | absoluteIndexedIndirect w => exact read16_fault h

theorem readSrc_fault {src : Src} {s : State} {f : Fault} (h : readSrc src s = .error f) : FaultOf n s.bus f := by
  cases src with
  | imm v => cases h
  | mem m =>
    obtain h | ⟨a, -, h⟩ := bind_eq_error.1 h
    · exact ea_fault h
    · exact readByte_fault h

theorem writeMem_fault {m : MemMode} {v : Byte} {s : State} {f : Fault} (h : writeMem m v s = .error f) :
    FaultOf n s.bus f := by
  obtain h | ⟨a, -, h⟩ := bind_eq_error.1 h
  · exact ea_fault h
  · exact writeByte_fault h

theorem rmw_fault {result : Byte → State → Byte} {flags : Byte → State → State} {dst : Dst} {s : State} {f : Fault}
    (hf : ∀ b, (flags b s).bus = s.bus) (h : rmw result flags dst s = .error f) : FaultOf n s.bus f := by
  cases dst with
  | acc => cases h
  | mem m =>
    obtain h | ⟨a, -, h⟩ := bind_eq_error.1 h
    · exact ea_fault h
    · obtain h | ⟨b, -, h⟩ := bind_eq_error.1 h
      · exact readByte_fault h
      · have := writeByte_fault (n := n) h
        rwa [hf] at this

theorem push_fault {v : Byte} {s : State} {f : Fault} (h : push v s = .error f) : FaultOf n s.bus f := by
  obtain ⟨r, hr, rfl⟩ := push_eq_error.1 h
  exact ⟨r, _, _, rfl, .refl _, .inr ⟨v, hr⟩⟩

theorem pull_fault {s : State} {f : Fault} (h : pull s = .error f) : FaultOf n s.bus f := by
  obtain ⟨r, hr, rfl⟩ := pull_eq_error.1 h
  exact ⟨r, _, _, rfl, .refl _, .inl hr⟩

/-- The low byte is pushed after the high one. -/
theorem pushWord_fault {w : Word} {s : State} {f : Fault} (h : pushWord w s = .error f) : FaultOf 1 s.bus f := by
  obtain h | ⟨t, ht, h⟩ := bind_eq_error.1 h
  · exact push_fault h
  · exact .after (n := 1) (p := 0) (push_written ht).chain (push_fault h)

theorem pullWord_fault {s : State} {f : Fault} (h : pullWord s = .error f) : FaultOf n s.bus f := by
  obtain h | ⟨p, hp, h⟩ := bind_eq_error.1 h
  · exact pull_fault h
  · obtain ⟨b, -, rfl⟩ := pull_eq_ok.1 hp
    obtain h | ⟨q, -, h⟩ := bind_eq_error.1 h
    · exact pull_fault (s := { s with SP := s.SP + 1#8 }) h
    · cases h

/-- The vector is read after three pushes. -/
theorem enterVector_fault {vector : Word} {brk : Bool} {s : State} {f : Fault}
    (h : enterVector vector brk s = .error f) : FaultOf 3 s.bus f := by
  obtain h | ⟨t, ht, h⟩ := bind_eq_error.1 h
  · exact (pushWord_fault h).mono
  · have c : WriteChain 2 s.bus t.bus := (pushWord_written ht).chain
    obtain h | ⟨u, hu, h⟩ := bind_eq_error.1 h
    · exact .after (n := 2) (p := 1) c (push_fault h)
    · obtain h | ⟨pc, -, h⟩ := bind_eq_error.1 h
      · exact .after (n := 3) (p := 0) (c.trans (p := 1) (push_written hu).chain) (read16_fault h)
      · cases h

theorem enterInterrupt_fault {k : Interrupt} {s : State} {f : Fault} (h : enterInterrupt k s = .error f) :
    FaultOf 3 s.bus f := by
  obtain h | ⟨t, -, h⟩ := bind_eq_error.1 h
  · exact enterVector_fault h
  · cases h

theorem interruptCheck_fault {s : State} {f : Fault} (h : interruptCheck s = .error f) : FaultOf 3 s.bus f := by
  obtain ⟨-, e⟩ | ⟨-, -, e⟩ | ⟨-, -, e⟩ := interruptCheck_cases s
  · exact enterInterrupt_fault (e.symm.trans h)
  · exact enterInterrupt_fault (e.symm.trans h)
  · cases e.symm.trans h

theorem returnFromInterrupt_fault {s : State} {f : Fault} (h : returnFromInterrupt s = .error f) :
    FaultOf n s.bus f := by
  obtain h | ⟨p, hp, h⟩ := bind_eq_error.1 h
  · exact pull_fault h
  · obtain ⟨b, -, rfl⟩ := pull_eq_ok.1 hp
    obtain h | ⟨q, -, h⟩ := bind_eq_error.1 h
    · exact pullWord_fault (s := loadFlags b { s with SP := s.SP + 1#8 }) h
    · cases h

end Fault

end Sys2Proof.Machine
end

