-- ==== Sys2Proof/Laws/Exec.lean ====
section
/-! SUPPORT. The eleven shapes an instruction has. Every instruction runs as one of them, so that a proof about all
instructions has eleven cases and cites the lemma of the operation in each. -/

namespace Sys2Proof.Machine

/-- The shape of an instruction's meaning. -/
inductive Action where
  /-- no access: a new state outright -/
  | update (f : State → State)
  /-- read class: one operand byte, then a new state -/
  | read (src : Src) (f : Byte → State → State)
  /-- write class: a byte of the state, stored -/
  | store (m : MemMode) (v : State → Byte)
  /-- read-modify-write class -/
  | modify (dst : Dst) (result : Byte → State → Byte) (flags : Byte → State → State)
  /-- push a byte of the state -/
  | push (v : State → Byte)
  /-- pull a byte, then a new state -/
  | pull (f : Byte → State → State)
  /-- PC from an effective address -/
  | jump (m : MemMode)
  | jsr (w : Word)
  | rts
  | rti
  | brk

/-- What the shape does. -/
def Action.run (a : Action) (s : State) : StepOutcome :=
  match a with
  | .update f => .next (f s)
  | .read src f => answer (do
      let m ← readSrc src s
      return f m s)
  | .store m v => answer (writeMem m (v s) s)
  | .modify dst result flags => answer (rmw result flags dst s)
  | .push v => answer (Machine.push (v s) s)
  | .pull f => answer (do
      let (b, t) ← Machine.pull s
      return f b t)
  | .jump m => answer (jumpTo m s)
  | .jsr w => answer (callSubroutine w s)
  | .rts => answer (returnFromSubroutine s)
  | .rti => answer (returnFromInterrupt s)
  | .brk => answer (enterVector vecIrq true s)

/-- The new state does not depend on the address space, and leaves it, the parameters, the pending bits and
in_service as they were. -/
def KeepsSurroundings (f : State → State) : Prop :=
  ∀ s, (f s).params = s.params ∧ (f s).pendingNmi = s.pendingNmi ∧ (f s).pendingIrq = s.pendingIrq ∧
    (f s).inService = s.inService ∧ ∀ b, f { s with bus := b } = { f s with bus := b }

theorem KeepsSurroundings.bus {f : State → State} (h : KeepsSurroundings f) (s : State) : (f s).bus = s.bus :=
  (congrArg State.bus ((h s).2.2.2.2 s.bus) :)

/-- What the parts of a shape keep, and what they read: not the address space. -/
def Action.Frame : Action → Prop
  | .update f => KeepsSurroundings f
  | .read _ f => ∀ m, KeepsSurroundings (f m)
  | .store _ v => ∀ (s : State) (b : AddressSpace), v { s with bus := b } = v s
  | .modify _ result flags => (∀ m, KeepsSurroundings (flags m)) ∧
      ∀ (m : Byte) (s : State) (b : AddressSpace), result m { s with bus := b } = result m s
  | .push v => ∀ (s : State) (b : AddressSpace), v { s with bus := b } = v s
  | .pull f => ∀ m, KeepsSurroundings (f m)
  | .jump _ => True
  | .jsr _ => True
  | .rts => True
  | .rti => True
  | .brk => True

theorem branchIf_keeps (c : State → Bool) (r : Byte)
    (hc : ∀ (s : State) (b : AddressSpace), c { s with bus := b } = c s) :
    KeepsSurroundings fun s => branchIf (c s) r s := by
  intro s
  simp only [hc]
  unfold branchIf
  cases c s <;> exact ⟨rfl, rfl, rfl, rfl, fun _ => rfl⟩

/-- The meaning is one of the shapes, whose parts keep their frame, and is not the return from interrupt. -/
def Shaped (f : State → StepOutcome) : Prop :=
  ∃ a : Action, a.Frame ∧ a ≠ .rti ∧ ∀ s, f s = a.run s

theorem shaped_update (f : State → State) (h : KeepsSurroundings f) : Shaped fun s => .next (f s) :=
  ⟨.update f, h, nofun, fun _ => rfl⟩

theorem shaped_branchIf (c : State → Bool) (r : Byte)
    (hc : ∀ (s : State) (b : AddressSpace), c { s with bus := b } = c s) :
    Shaped fun s => .next (branchIf (c s) r s) :=
  shaped_update _ (branchIf_keeps c r hc)

theorem shaped_read (src : Src) (f : Byte → State → State) (h : ∀ m, KeepsSurroundings (f m)) :
    Shaped fun s => answer (do
      let m ← readSrc src s
      return f m s) :=
  ⟨.read src f, h, nofun, fun _ => rfl⟩

theorem shaped_branchOnBit (n : Nat) (want : Bool) (z r : Byte) :
    Shaped fun s => answer (branchOnBit n want z r s) :=
  shaped_read (.mem (.zeroPage z)) (fun m s => branchIf (m.getLsbD n == want) r s)
    fun m => branchIf_keeps (fun _ => m.getLsbD n == want) r fun _ _ => rfl

theorem shaped_store (m : MemMode) (v : State → Byte) (h : ∀ (s : State) (b : AddressSpace), v { s with bus := b } = v s) :
    Shaped fun s => answer (writeMem m (v s) s) :=
  ⟨.store m v, h, nofun, fun _ => rfl⟩

theorem shaped_modify (dst : Dst) (result : Byte → State → Byte) (flags : Byte → State → State)
    (h : Action.Frame (.modify dst result flags)) : Shaped fun s => answer (rmw result flags dst s) :=
  ⟨.modify dst result flags, h, nofun, fun _ => rfl⟩

theorem shaped_push (v : State → Byte) (h : ∀ (s : State) (b : AddressSpace), v { s with bus := b } = v s) :
    Shaped fun s => answer (push (v s) s) :=
  ⟨.push v, h, nofun, fun _ => rfl⟩

theorem shaped_pull (f : Byte → State → State) (h : ∀ m, KeepsSurroundings (f m)) :
    Shaped fun s => answer (do
      let (b, t) ← pull s
      return f b t) :=
  ⟨.pull f, h, nofun, fun _ => rfl⟩

theorem shaped_jumpTo (m : MemMode) : Shaped fun s => answer (jumpTo m s) :=
  ⟨.jump m, trivial, nofun, fun _ => rfl⟩

theorem shaped_loadA (src : Src) : Shaped fun s => answer (loadA src s) :=
  shaped_read src (fun m s => setNZ m { s with A := m }) fun _ _ => ⟨rfl, rfl, rfl, rfl, fun _ => rfl⟩

theorem shaped_loadX (src : Src) : Shaped fun s => answer (loadX src s) :=
  shaped_read src (fun m s => setNZ m { s with X := m }) fun _ _ => ⟨rfl, rfl, rfl, rfl, fun _ => rfl⟩

theorem shaped_loadY (src : Src) : Shaped fun s => answer (loadY src s) :=
  shaped_read src (fun m s => setNZ m { s with Y := m }) fun _ _ => ⟨rfl, rfl, rfl, rfl, fun _ => rfl⟩

theorem shaped_addWithCarry (src : Src) : Shaped fun s => answer (addWithCarry src s) :=
  shaped_read src (fun m s => setSum (adcSum s m) s) fun _ _ => ⟨rfl, rfl, rfl, rfl, fun _ => rfl⟩

theorem shaped_subWithBorrow (src : Src) : Shaped fun s => answer (subWithBorrow src s) :=
  shaped_read src (fun m s => setSum (sbcSum s m) s) fun _ _ => ⟨rfl, rfl, rfl, rfl, fun _ => rfl⟩

theorem shaped_andA (src : Src) : Shaped fun s => answer (andA src s) :=
  shaped_read src (fun m s => setNZ (s.A &&& m) { s with A := s.A &&& m }) fun _ _ => ⟨rfl, rfl, rfl, rfl, fun _ => rfl⟩

theorem shaped_orA (src : Src) : Shaped fun s => answer (orA src s) :=
  shaped_read src (fun m s => setNZ (s.A ||| m) { s with A := s.A ||| m }) fun _ _ => ⟨rfl, rfl, rfl, rfl, fun _ => rfl⟩

theorem shaped_eorA (src : Src) : Shaped fun s => answer (eorA src s) :=
  shaped_read src (fun m s => setNZ (s.A ^^^ m) { s with A := s.A ^^^ m }) fun _ _ => ⟨rfl, rfl, rfl, rfl, fun _ => rfl⟩

theorem shaped_compareWith (reg : State → Byte) (src : Src)
    (h : ∀ (s : State) (b : AddressSpace), reg { s with bus := b } = reg s) :
    Shaped fun s => answer (compareWith (reg s) src s) :=
  shaped_read src (fun m s => compareFlags (reg s) m s)
    fun _ s => ⟨rfl, rfl, rfl, rfl, fun b => by simp only [h]; rfl⟩

theorem shaped_bitTest (mode : MemMode) : Shaped fun s => answer (bitTest mode s) :=
  shaped_read (.mem mode) (fun m s => { testFlags m s with N := m.getLsbD 7, V := m.getLsbD 6 })
    fun _ _ => ⟨rfl, rfl, rfl, rfl, fun _ => rfl⟩

theorem shaped_bitTestImmediate (v : Byte) : Shaped fun s => answer (bitTestImmediate v s) :=
  shaped_read (.imm v) (fun m s => testFlags m s) fun _ _ => ⟨rfl, rfl, rfl, rfl, fun _ => rfl⟩

theorem shaped_shiftLeft (dst : Dst) : Shaped fun s => answer (shiftLeft dst s) :=
  shaped_modify dst _ _ ⟨fun _ _ => ⟨rfl, rfl, rfl, rfl, fun _ => rfl⟩, fun _ _ _ => rfl⟩

theorem shaped_shiftRight (dst : Dst) : Shaped fun s => answer (shiftRight dst s) :=
  shaped_modify dst _ _ ⟨fun _ _ => ⟨rfl, rfl, rfl, rfl, fun _ => rfl⟩, fun _ _ _ => rfl⟩

theorem shaped_rotateLeft (dst : Dst) : Shaped fun s => answer (rotateLeft dst s) :=
  shaped_modify dst _ _ ⟨fun _ _ => ⟨rfl, rfl, rfl, rfl, fun _ => rfl⟩, fun _ _ _ => rfl⟩

theorem shaped_rotateRight (dst : Dst) : Shaped fun s => answer (rotateRight dst s) :=
  shaped_modify dst _ _ ⟨fun _ _ => ⟨rfl, rfl, rfl, rfl, fun _ => rfl⟩, fun _ _ _ => rfl⟩

theorem shaped_increment (dst : Dst) : Shaped fun s => answer (increment dst s) :=
  shaped_modify dst _ _ ⟨fun _ _ => ⟨rfl, rfl, rfl, rfl, fun _ => rfl⟩, fun _ _ _ => rfl⟩

theorem shaped_decrement (dst : Dst) : Shaped fun s => answer (decrement dst s) :=
  shaped_modify dst _ _ ⟨fun _ _ => ⟨rfl, rfl, rfl, rfl, fun _ => rfl⟩, fun _ _ _ => rfl⟩

theorem shaped_testAndSet (mode : MemMode) : Shaped fun s => answer (testAndSet mode s) :=
  shaped_modify (.mem mode) _ _ ⟨fun _ _ => ⟨rfl, rfl, rfl, rfl, fun _ => rfl⟩, fun _ _ _ => rfl⟩

theorem shaped_testAndReset (mode : MemMode) : Shaped fun s => answer (testAndReset mode s) :=
  shaped_modify (.mem mode) _ _ ⟨fun _ _ => ⟨rfl, rfl, rfl, rfl, fun _ => rfl⟩, fun _ _ _ => rfl⟩

theorem shaped_resetBit (n : Nat) (z : Byte) : Shaped fun s => answer (resetBit n z s) :=
  shaped_modify (.mem (.zeroPage z)) _ _ ⟨fun _ _ => ⟨rfl, rfl, rfl, rfl, fun _ => rfl⟩, fun _ _ _ => rfl⟩

theorem shaped_setBit (n : Nat) (z : Byte) : Shaped fun s => answer (setBit n z s) :=
  shaped_modify (.mem (.zeroPage z)) _ _ ⟨fun _ _ => ⟨rfl, rfl, rfl, rfl, fun _ => rfl⟩, fun _ _ _ => rfl⟩

/-- Every instruction but RTI has one of the shapes and is not the return from interrupt. -/
theorem exec_shaped (i : Instr) (h : i ≠ .rti) : Shaped (exec i) := by
  match i, h with
  | .ldaIndX _, _ | .ldaZp _, _ | .ldaAbs _, _ | .ldaIndY _, _ | .ldaZpInd _, _ | .ldaZpX _, _ | .ldaAbsY _, _
  | .ldaAbsX _, _ =>
    exact shaped_loadA (.mem _)
  | .ldaImm v, _ =>
    exact shaped_loadA (.imm v)
  | .ldxZp _, _ | .ldxAbs _, _ | .ldxZpY _, _ | .ldxAbsY _, _ =>
    exact shaped_loadX (.mem _)
  | .ldxImm v, _ =>
    exact shaped_loadX (.imm v)
  | .ldyZp _, _ | .ldyAbs _, _ | .ldyZpX _, _ | .ldyAbsX _, _ =>
    exact shaped_loadY (.mem _)
  | .ldyImm v, _ =>
    exact shaped_loadY (.imm v)
  | .adcIndX _, _ | .adcZp _, _ | .adcAbs _, _ | .adcIndY _, _ | .adcZpInd _, _ | .adcZpX _, _ | .adcAbsY _, _
  | .adcAbsX _, _ =>
    exact shaped_addWithCarry (.mem _)
  | .adcImm v, _ =>
    exact shaped_addWithCarry (.imm v)
  | .sbcIndX _, _ | .sbcZp _, _ | .sbcAbs _, _ | .sbcIndY _, _ | .sbcZpInd _, _ | .sbcZpX _, _ | .sbcAbsY _, _
  | .sbcAbsX _, _ =>
    exact shaped_subWithBorrow (.mem _)
  | .sbcImm v, _ =>
    exact shaped_subWithBorrow (.imm v)
  | .andIndX _, _ | .andZp _, _ | .andAbs _, _ | .andIndY _, _ | .andZpInd _, _ | .andZpX _, _ | .andAbsY _, _
  | .andAbsX _, _ =>
    exact shaped_andA (.mem _)
  | .andImm v, _ =>
    exact shaped_andA (.imm v)
  | .oraIndX _, _ | .oraZp _, _ | .oraAbs _, _ | .oraIndY _, _ | .oraZpInd _, _ | .oraZpX _, _ | .oraAbsY _, _
  | .oraAbsX _, _ =>
    exact shaped_orA (.mem _)
  | .oraImm v, _ =>
    exact shaped_orA (.imm v)
  | .eorIndX _, _ | .eorZp _, _ | .eorAbs _, _ | .eorIndY _, _ | .eorZpInd _, _ | .eorZpX _, _ | .eorAbsY _, _
  | .eorAbsX _, _ =>
    exact shaped_eorA (.mem _)
  | .eorImm v, _ =>
    exact shaped_eorA (.imm v)
  | .cmpIndX _, _ | .cmpZp _, _ | .cmpAbs _, _ | .cmpIndY _, _ | .cmpZpInd _, _ | .cmpZpX _, _ | .cmpAbsY _, _
  | .cmpAbsX _, _ =>
    exact shaped_compareWith (·.A) (.mem _) fun _ _ => rfl
  | .cmpImm v, _ =>
    exact shaped_compareWith (·.A) (.imm v) fun _ _ => rfl
  | .cpxZp _, _ | .cpxAbs _, _ =>
    exact shaped_compareWith (·.X) (.mem _) fun _ _ => rfl
  | .cpxImm v, _ =>
    exact shaped_compareWith (·.X) (.imm v) fun _ _ => rfl
  | .cpyZp _, _ | .cpyAbs _, _ =>
    exact shaped_compareWith (·.Y) (.mem _) fun _ _ => rfl
  | .cpyImm v, _ =>
    exact shaped_compareWith (·.Y) (.imm v) fun _ _ => rfl
  | .bitZp _, _ | .bitAbs _, _ | .bitZpX _, _ | .bitAbsX _, _ =>
    exact shaped_bitTest _
  | .bitImm _, _ =>
    exact shaped_bitTestImmediate _
  | .staIndX _, _ | .staZp _, _ | .staAbs _, _ | .staIndY _, _ | .staZpInd _, _ | .staZpX _, _ | .staAbsY _, _
  | .staAbsX _, _ =>
    exact shaped_store _ (fun s => s.A) fun _ _ => rfl
  | .stxZp _, _ | .stxAbs _, _ | .stxZpY _, _ =>
    exact shaped_store _ (fun s => s.X) fun _ _ => rfl
  | .styZp _, _ | .styAbs _, _ | .styZpX _, _ =>
    exact shaped_store _ (fun s => s.Y) fun _ _ => rfl
  | .stzZp _, _ | .stzZpX _, _ | .stzAbs _, _ | .stzAbsX _, _ =>
    exact shaped_store _ (fun _ => 0x00#8) fun _ _ => rfl
  | .aslZp _, _ | .aslAbs _, _ | .aslZpX _, _ | .aslAbsX _, _ =>
    exact shaped_shiftLeft (.mem _)
  | .aslAcc, _ =>
    exact shaped_shiftLeft .acc
  | .lsrZp _, _ | .lsrAbs _, _ | .lsrZpX _, _ | .lsrAbsX _, _ =>
    exact shaped_shiftRight (.mem _)
  | .lsrAcc, _ =>
    exact shaped_shiftRight .acc
  | .rolZp _, _ | .rolAbs _, _ | .rolZpX _, _ | .rolAbsX _, _ =>
    exact shaped_rotateLeft (.mem _)
  | .rolAcc, _ =>
    exact shaped_rotateLeft .acc
  | .rorZp _, _ | .rorAbs _, _ | .rorZpX _, _ | .rorAbsX _, _ =>
    exact shaped_rotateRight (.mem _)
  | .rorAcc, _ =>
    exact shaped_rotateRight .acc
  | .incZp _, _ | .incAbs _, _ | .incZpX _, _ | .incAbsX _, _ =>
    exact shaped_increment (.mem _)
  | .incAcc, _ =>
    exact shaped_increment .acc
  | .decZp _, _ | .decAbs _, _ | .decZpX _, _ | .decAbsX _, _ =>
    exact shaped_decrement (.mem _)
  | .decAcc, _ =>
    exact shaped_decrement .acc
  | .tsbZp _, _ | .tsbAbs _, _ =>
    exact shaped_testAndSet _
  | .trbZp _, _ | .trbAbs _, _ =>
    exact shaped_testAndReset _
  | .rmb0 _, _ | .rmb1 _, _ | .rmb2 _, _ | .rmb3 _, _ | .rmb4 _, _ | .rmb5 _, _ | .rmb6 _, _ | .rmb7 _, _ =>
    exact shaped_resetBit _ _
  | .smb0 _, _ | .smb1 _, _ | .smb2 _, _ | .smb3 _, _ | .smb4 _, _ | .smb5 _, _ | .smb6 _, _ | .smb7 _, _ =>
    exact shaped_setBit _ _
  | .pha, _ =>
    exact shaped_push (fun s => s.A) fun _ _ => rfl
  | .phx, _ =>
    exact shaped_push (fun s => s.X) fun _ _ => rfl
  | .phy, _ =>
    exact shaped_push (fun s => s.Y) fun _ _ => rfl
  | .php, _ =>
    exact shaped_push (fun s => pImage true s) fun _ _ => rfl
  | .pla, _ =>
    exact shaped_pull (fun b t => setNZ b { t with A := b }) fun _ _ => ⟨rfl, rfl, rfl, rfl, fun _ => rfl⟩
  | .plx, _ =>
    exact shaped_pull (fun b t => setNZ b { t with X := b }) fun _ _ => ⟨rfl, rfl, rfl, rfl, fun _ => rfl⟩
  | .ply, _ =>
    exact shaped_pull (fun b t => setNZ b { t with Y := b }) fun _ _ => ⟨rfl, rfl, rfl, rfl, fun _ => rfl⟩
  | .plp, _ =>
    exact shaped_pull (fun b t => loadFlags b t) fun _ _ => ⟨rfl, rfl, rfl, rfl, fun _ => rfl⟩
  | .bbr0 _ _, _ | .bbr1 _ _, _ | .bbr2 _ _, _ | .bbr3 _ _, _ | .bbr4 _ _, _ | .bbr5 _ _, _ | .bbr6 _ _, _
  | .bbr7 _ _, _ | .bbs0 _ _, _ | .bbs1 _ _, _ | .bbs2 _ _, _ | .bbs3 _ _, _ | .bbs4 _ _, _ | .bbs5 _ _, _
  | .bbs6 _ _, _ | .bbs7 _ _, _ =>
    exact shaped_branchOnBit _ _ _ _
  | .bpl _, _ =>
    exact shaped_branchIf (fun s => !s.N) _ fun _ _ => rfl
  | .bmi _, _ =>
    exact shaped_branchIf (fun s => s.N) _ fun _ _ => rfl
  | .bvc _, _ =>
    exact shaped_branchIf (fun s => !s.V) _ fun _ _ => rfl
  | .bvs _, _ =>
    exact shaped_branchIf (fun s => s.V) _ fun _ _ => rfl
  | .bcc _, _ =>
    exact shaped_branchIf (fun s => !s.C) _ fun _ _ => rfl
  | .bcs _, _ =>
    exact shaped_branchIf (fun s => s.C) _ fun _ _ => rfl
  | .bne _, _ =>
    exact shaped_branchIf (fun s => !s.Z) _ fun _ _ => rfl
  | .beq _, _ =>
    exact shaped_branchIf (fun s => s.Z) _ fun _ _ => rfl
  | .bra _, _ =>
    exact shaped_branchIf (fun _ => true) _ fun _ _ => rfl
  | .jmpAbs w, _ =>
    exact shaped_jumpTo (.absolute w)
  | .jmpInd w, _ =>
    exact shaped_jumpTo (.indirect w)
  | .jmpAbsIndX w, _ =>
    exact shaped_jumpTo (.absoluteIndexedIndirect w)
  | .jsr _, _ =>
    exact ⟨.jsr _, trivial, nofun, fun _ => rfl⟩
  | .rts, _ =>
    exact ⟨.rts, trivial, nofun, fun _ => rfl⟩
  | .brk _, _ =>
    exact ⟨.brk, trivial, nofun, fun _ => rfl⟩
  | .nopImm02 _, _ | .nopImp03, _ | .nopImp0B, _ | .nopImp13, _ | .clc, _ | .nopImp1B, _ | .nopImm22 _, _
  | .nopImp23, _ | .nopImp2B, _ | .nopImp33, _ | .sec, _ | .nopImp3B, _ | .nopImm42 _, _ | .nopImp43, _
  | .nopZp44 _, _ | .nopImp4B, _ | .nopImp53, _ | .nopZpX54 _, _ | .cli, _ | .nopImp5B, _ | .nopAbs5C _, _
  | .nopImm62 _, _ | .nopImp63, _ | .nopImp6B, _ | .nopImp73, _ | .sei, _ | .nopImp7B, _ | .nopImm82 _, _
  | .nopImp83, _ | .dey, _ | .txa, _ | .nopImp8B, _ | .nopImp93, _ | .tya, _ | .txs, _ | .nopImp9B, _
  | .nopImpA3, _ | .tay, _ | .tax, _ | .nopImpAB, _ | .nopImpB3, _ | .clv, _ | .tsx, _ | .nopImpBB, _
  | .nopImmC2 _, _ | .nopImpC3, _ | .iny, _ | .dex, _ | .wai, _ | .nopImpD3, _ | .nopZpXD4 _, _ | .cld, _
  | .stp, _ | .nopAbsDC _, _ | .nopImmE2 _, _ | .nopImpE3, _ | .inx, _ | .nop, _ | .nopImpEB, _ | .nopImpF3, _
  | .nopZpXF4 _, _ | .sed, _ | .nopImpFB, _ | .nopAbsFC _, _ =>
    exact shaped_update _ fun _ => ⟨rfl, rfl, rfl, rfl, fun _ => rfl⟩

/-- RTI runs as the return from interrupt. -/
theorem exec_rti (s : State) : exec .rti s = Action.run .rti s := rfl

/-- Every instruction runs as a shape that keeps its frame. -/
theorem exec_shape (i : Instr) : ∃ a : Action, a.Frame ∧ (a = .rti ↔ i = .rti) ∧ ∀ s, exec i s = a.run s := by
  by_cases h : i = .rti
  · subst h
    exact ⟨.rti, trivial, by simp, exec_rti⟩
  · obtain ⟨a, hf, ha, hr⟩ := exec_shaped i h
    exact ⟨a, hf, by simp [ha, h], hr⟩

/-- What is true of every shape that answers a next state: the address space is reached by at most three writes,
the parameters and the pending bits are as before, and in_service is unless the shape is the return from
interrupt. -/
theorem Action.run_next {a : Action} (hf : a.Frame) {s t : State} (h : a.run s = .next t) :
    WriteChain 3 s.bus t.bus ∧ t.params = s.params ∧ t.pendingNmi = s.pendingNmi ∧ t.pendingIrq = s.pendingIrq ∧
      (a = .rti → t.inService = false) ∧ (a ≠ .rti → t.inService = s.inService) := by
  have keep : ∀ {f : State → State}, KeepsSurroundings f → ∀ u : State, u.bus = s.bus → u.params = s.params →
      u.pendingNmi = s.pendingNmi → u.pendingIrq = s.pendingIrq → u.inService = s.inService →
      WriteChain 3 s.bus (f u).bus ∧ (f u).params = s.params ∧ (f u).pendingNmi = s.pendingNmi ∧
        (f u).pendingIrq = s.pendingIrq ∧ (f u).inService = s.inService := by
    intro f hk u h1 h2 h3 h4 h5
    obtain ⟨k1, k2, k3, k4, -⟩ := hk u
    exact ⟨by rw [hk.bus, h1]; exact .refl _, k1.trans h2, k2.trans h3, k3.trans h4, k4.trans h5⟩
  cases a with
  | update f =>
    cases h
    obtain ⟨k0, k1, k2, k3, k4⟩ := keep hf s rfl rfl rfl rfl rfl
    exact ⟨k0, k1, k2, k3, nofun, fun _ => k4⟩
  | read src f =>
    obtain ⟨m, -, e⟩ := bind_eq_ok.1 (answer_eq_next.1 h)
    cases e
    obtain ⟨k0, k1, k2, k3, k4⟩ := keep (hf m) s rfl rfl rfl rfl rfl
    exact ⟨k0, k1, k2, k3, nofun, fun _ => k4⟩
  | store m v =>
    obtain ⟨x, n, -, hw, rfl⟩ := writeMem_eq_ok.1 (answer_eq_next.1 h)
    exact ⟨(Written.one hw).chain, rfl, rfl, rfl, nofun, fun _ => rfl⟩
  | modify dst result flags =>
    have e := answer_eq_next.1 h
    cases dst with
    | acc =>
      cases e
      obtain ⟨k0, k1, k2, k3, k4⟩ := keep (hf.1 s.A) s rfl rfl rfl rfl rfl
      exact ⟨k0, k1, k2, k3, nofun, fun _ => k4⟩
    | mem m =>
      obtain ⟨x, b, n, -, -, hw, rfl⟩ := (rmw_mem_eq_ok fun b => (hf.1 b).bus s).1 e
      obtain ⟨-, k1, k2, k3, k4⟩ := keep (hf.1 b) s rfl rfl rfl rfl rfl
      exact ⟨(Written.one hw).chain, k1, k2, k3, nofun, fun _ => k4⟩
  | push v =>
    obtain ⟨n, hw, rfl⟩ := push_eq_ok.1 (answer_eq_next.1 h)
    exact ⟨(Written.one hw).chain, rfl, rfl, rfl, nofun, fun _ => rfl⟩
  | pull f =>
    obtain ⟨p, hp, e⟩ := bind_eq_ok.1 (answer_eq_next.1 h)
    obtain ⟨b, -, rfl⟩ := pull_eq_ok.1 hp
    cases e
    obtain ⟨k0, k1, k2, k3, k4⟩ := keep (hf b) { s with SP := s.SP + 1#8 } rfl rfl rfl rfl rfl
    exact ⟨k0, k1, k2, k3, nofun, fun _ => k4⟩
  | jump m =>
    obtain ⟨x, -, e⟩ := bind_eq_ok.1 (answer_eq_next.1 h)
    cases e
    exact ⟨.refl _, rfl, rfl, rfl, nofun, fun _ => rfl⟩
  | jsr w =>
    obtain ⟨u, hu, e⟩ := bind_eq_ok.1 (answer_eq_next.1 h)
    have c : WriteChain 3 s.bus u.bus := (pushWord_written hu).chain
    obtain ⟨m, n, -, -, rfl⟩ := pushWord_eq_ok.1 hu
    cases e
    exact ⟨c, rfl, rfl, rfl, nofun, fun _ => rfl⟩
  | rts =>
    obtain ⟨p, hp, e⟩ := bind_eq_ok.1 (answer_eq_next.1 h)
    obtain ⟨lo, hi, -, -, rfl⟩ := pullWord_eq_ok.1 hp
    cases e
    exact ⟨.refl _, rfl, rfl, rfl, nofun, fun _ => rfl⟩
  | rti =>
    obtain ⟨p, hp, e⟩ := bind_eq_ok.1 (answer_eq_next.1 h)
    obtain ⟨b, -, rfl⟩ := pull_eq_ok.1 hp
    obtain ⟨q, hq, e⟩ := bind_eq_ok.1 e
    obtain ⟨lo, hi, -, -, rfl⟩ := pullWord_eq_ok.1 hq
    cases e
    exact ⟨.refl _, rfl, rfl, rfl, fun _ => rfl, fun g => absurd rfl g⟩
  | brk =>
    have e := answer_eq_next.1 h
    have c : WriteChain 3 s.bus t.bus := (enterVector_written e).chain
    obtain ⟨b1, b2, b3, lo, hi, -, -, -, -, -, rfl⟩ := enterVector_eq_ok.1 e
    exact ⟨c, rfl, rfl, rfl, nofun, fun _ => rfl⟩

/-- A shape that faults names an access that the address space, after at most three writes, answers
Unimplemented. -/
theorem Action.run_fault {a : Action} (hf : a.Frame) {s : State} {f : Fault} (h : a.run s = .fault f) :
    FaultOf 3 s.bus f := by
  cases a with
  | update g => cases h
  | read src g =>
    obtain e | ⟨m, -, e⟩ := bind_eq_error.1 (answer_eq_fault.1 h)
    · exact readSrc_fault e
    · cases e
  | store m v => exact writeMem_fault (answer_eq_fault.1 h)
  | modify dst result flags => exact rmw_fault (fun b => (hf.1 b).bus s) (answer_eq_fault.1 h)
  | push v => exact push_fault (answer_eq_fault.1 h)
  | pull g =>
    obtain e | ⟨p, -, e⟩ := bind_eq_error.1 (answer_eq_fault.1 h)
    · exact pull_fault e
    · cases e
  | jump m =>
    obtain e | ⟨x, -, e⟩ := bind_eq_error.1 (answer_eq_fault.1 h)
    · exact ea_fault e
    · cases e
  | jsr w =>
    obtain e | ⟨u, -, e⟩ := bind_eq_error.1 (answer_eq_fault.1 h)
    · exact (pushWord_fault e).mono
    · cases e
  | rts =>
    obtain e | ⟨p, -, e⟩ := bind_eq_error.1 (answer_eq_fault.1 h)
    · exact pullWord_fault e
    · cases e
  | rti => exact returnFromInterrupt_fault (answer_eq_fault.1 h)
  | brk => exact enterVector_fault (answer_eq_fault.1 h)

/-- No shape answers a refusal. -/
theorem Action.run_ne_refused (a : Action) (s : State) (r : Refusal) : a.run s ≠ .refused r := by
  cases a with
  | update f => exact nofun
  | _ => exact answer_ne_refused _ r

end Sys2Proof.Machine
end

