-- ==== Sys2Proof/Laws/PerInstr.lean ====
section
/-! SUPPORT. The per-instruction family EncodeLength: an instruction is well formed, and its bytes are as many
as LENGTH of its addressing mode says (30_encoding.md R104, R107). -/

namespace Sys2Proof.Laws.EncodeLength

/-- The statement, of one instruction. -/
def Statement (i : Instr) : Prop := i.wellFormed = true ∧ (encode i).length = instrLength i

theorem brk (v : Byte) : Statement (.brk v) := ⟨rfl, rfl⟩
theorem oraIndX (z : Byte) : Statement (.oraIndX z) := ⟨rfl, rfl⟩
theorem nopImm02 (v : Byte) : Statement (.nopImm02 v) := ⟨rfl, rfl⟩
theorem nopImp03 : Statement (.nopImp03) := ⟨rfl, rfl⟩
theorem tsbZp (z : Byte) : Statement (.tsbZp z) := ⟨rfl, rfl⟩
theorem oraZp (z : Byte) : Statement (.oraZp z) := ⟨rfl, rfl⟩
theorem aslZp (z : Byte) : Statement (.aslZp z) := ⟨rfl, rfl⟩
theorem rmb0 (z : Byte) : Statement (.rmb0 z) := ⟨rfl, rfl⟩
theorem php : Statement (.php) := ⟨rfl, rfl⟩
theorem oraImm (v : Byte) : Statement (.oraImm v) := ⟨rfl, rfl⟩
theorem aslAcc : Statement (.aslAcc) := ⟨rfl, rfl⟩
theorem nopImp0B : Statement (.nopImp0B) := ⟨rfl, rfl⟩
theorem tsbAbs (w : Word) : Statement (.tsbAbs w) := ⟨rfl, rfl⟩
theorem oraAbs (w : Word) : Statement (.oraAbs w) := ⟨rfl, rfl⟩
theorem aslAbs (w : Word) : Statement (.aslAbs w) := ⟨rfl, rfl⟩
theorem bbr0 (z : Byte) (r : Byte) : Statement (.bbr0 z r) := ⟨rfl, rfl⟩
theorem bpl (r : Byte) : Statement (.bpl r) := ⟨rfl, rfl⟩
theorem oraIndY (z : Byte) : Statement (.oraIndY z) := ⟨rfl, rfl⟩
theorem oraZpInd (z : Byte) : Statement (.oraZpInd z) := ⟨rfl, rfl⟩
theorem nopImp13 : Statement (.nopImp13) := ⟨rfl, rfl⟩
theorem trbZp (z : Byte) : Statement (.trbZp z) := ⟨rfl, rfl⟩
theorem oraZpX (z : Byte) : Statement (.oraZpX z) := ⟨rfl, rfl⟩
theorem aslZpX (z : Byte) : Statement (.aslZpX z) := ⟨rfl, rfl⟩
theorem rmb1 (z : Byte) : Statement (.rmb1 z) := ⟨rfl, rfl⟩
theorem clc : Statement (.clc) := ⟨rfl, rfl⟩
theorem oraAbsY (w : Word) : Statement (.oraAbsY w) := ⟨rfl, rfl⟩
theorem incAcc : Statement (.incAcc) := ⟨rfl, rfl⟩
theorem nopImp1B : Statement (.nopImp1B) := ⟨rfl, rfl⟩
theorem trbAbs (w : Word) : Statement (.trbAbs w) := ⟨rfl, rfl⟩
theorem oraAbsX (w : Word) : Statement (.oraAbsX w) := ⟨rfl, rfl⟩
theorem aslAbsX (w : Word) : Statement (.aslAbsX w) := ⟨rfl, rfl⟩
theorem bbr1 (z : Byte) (r : Byte) : Statement (.bbr1 z r) := ⟨rfl, rfl⟩
theorem jsr (w : Word) : Statement (.jsr w) := ⟨rfl, rfl⟩
theorem andIndX (z : Byte) : Statement (.andIndX z) := ⟨rfl, rfl⟩
theorem nopImm22 (v : Byte) : Statement (.nopImm22 v) := ⟨rfl, rfl⟩
theorem nopImp23 : Statement (.nopImp23) := ⟨rfl, rfl⟩
theorem bitZp (z : Byte) : Statement (.bitZp z) := ⟨rfl, rfl⟩
theorem andZp (z : Byte) : Statement (.andZp z) := ⟨rfl, rfl⟩
theorem rolZp (z : Byte) : Statement (.rolZp z) := ⟨rfl, rfl⟩
theorem rmb2 (z : Byte) : Statement (.rmb2 z) := ⟨rfl, rfl⟩
theorem plp : Statement (.plp) := ⟨rfl, rfl⟩
theorem andImm (v : Byte) : Statement (.andImm v) := ⟨rfl, rfl⟩
theorem rolAcc : Statement (.rolAcc) := ⟨rfl, rfl⟩
theorem nopImp2B : Statement (.nopImp2B) := ⟨rfl, rfl⟩
theorem bitAbs (w : Word) : Statement (.bitAbs w) := ⟨rfl, rfl⟩
theorem andAbs (w : Word) : Statement (.andAbs w) := ⟨rfl, rfl⟩
theorem rolAbs (w : Word) : Statement (.rolAbs w) := ⟨rfl, rfl⟩
theorem bbr2 (z : Byte) (r : Byte) : Statement (.bbr2 z r) := ⟨rfl, rfl⟩
theorem bmi (r : Byte) : Statement (.bmi r) := ⟨rfl, rfl⟩
theorem andIndY (z : Byte) : Statement (.andIndY z) := ⟨rfl, rfl⟩
theorem andZpInd (z : Byte) : Statement (.andZpInd z) := ⟨rfl, rfl⟩
theorem nopImp33 : Statement (.nopImp33) := ⟨rfl, rfl⟩
theorem bitZpX (z : Byte) : Statement (.bitZpX z) := ⟨rfl, rfl⟩
theorem andZpX (z : Byte) : Statement (.andZpX z) := ⟨rfl, rfl⟩
theorem rolZpX (z : Byte) : Statement (.rolZpX z) := ⟨rfl, rfl⟩
theorem rmb3 (z : Byte) : Statement (.rmb3 z) := ⟨rfl, rfl⟩
theorem sec : Statement (.sec) := ⟨rfl, rfl⟩
theorem andAbsY (w : Word) : Statement (.andAbsY w) := ⟨rfl, rfl⟩
theorem decAcc : Statement (.decAcc) := ⟨rfl, rfl⟩
theorem nopImp3B : Statement (.nopImp3B) := ⟨rfl, rfl⟩
theorem bitAbsX (w : Word) : Statement (.bitAbsX w) := ⟨rfl, rfl⟩
theorem andAbsX (w : Word) : Statement (.andAbsX w) := ⟨rfl, rfl⟩
theorem rolAbsX (w : Word) : Statement (.rolAbsX w) := ⟨rfl, rfl⟩
theorem bbr3 (z : Byte) (r : Byte) : Statement (.bbr3 z r) := ⟨rfl, rfl⟩
theorem rti : Statement (.rti) := ⟨rfl, rfl⟩
theorem eorIndX (z : Byte) : Statement (.eorIndX z) := ⟨rfl, rfl⟩
theorem nopImm42 (v : Byte) : Statement (.nopImm42 v) := ⟨rfl, rfl⟩
theorem nopImp43 : Statement (.nopImp43) := ⟨rfl, rfl⟩
theorem nopZp44 (z : Byte) : Statement (.nopZp44 z) := ⟨rfl, rfl⟩
theorem eorZp (z : Byte) : Statement (.eorZp z) := ⟨rfl, rfl⟩
theorem lsrZp (z : Byte) : Statement (.lsrZp z) := ⟨rfl, rfl⟩
theorem rmb4 (z : Byte) : Statement (.rmb4 z) := ⟨rfl, rfl⟩
theorem pha : Statement (.pha) := ⟨rfl, rfl⟩
theorem eorImm (v : Byte) : Statement (.eorImm v) := ⟨rfl, rfl⟩
theorem lsrAcc : Statement (.lsrAcc) := ⟨rfl, rfl⟩
theorem nopImp4B : Statement (.nopImp4B) := ⟨rfl, rfl⟩
theorem jmpAbs (w : Word) : Statement (.jmpAbs w) := ⟨rfl, rfl⟩
theorem eorAbs (w : Word) : Statement (.eorAbs w) := ⟨rfl, rfl⟩
theorem lsrAbs (w : Word) : Statement (.lsrAbs w) := ⟨rfl, rfl⟩
theorem bbr4 (z : Byte) (r : Byte) : Statement (.bbr4 z r) := ⟨rfl, rfl⟩
theorem bvc (r : Byte) : Statement (.bvc r) := ⟨rfl, rfl⟩
theorem eorIndY (z : Byte) : Statement (.eorIndY z) := ⟨rfl, rfl⟩
theorem eorZpInd (z : Byte) : Statement (.eorZpInd z) := ⟨rfl, rfl⟩
theorem nopImp53 : Statement (.nopImp53) := ⟨rfl, rfl⟩
theorem nopZpX54 (z : Byte) : Statement (.nopZpX54 z) := ⟨rfl, rfl⟩
theorem eorZpX (z : Byte) : Statement (.eorZpX z) := ⟨rfl, rfl⟩
theorem lsrZpX (z : Byte) : Statement (.lsrZpX z) := ⟨rfl, rfl⟩
theorem rmb5 (z : Byte) : Statement (.rmb5 z) := ⟨rfl, rfl⟩
theorem cli : Statement (.cli) := ⟨rfl, rfl⟩
theorem eorAbsY (w : Word) : Statement (.eorAbsY w) := ⟨rfl, rfl⟩
theorem phy : Statement (.phy) := ⟨rfl, rfl⟩
theorem nopImp5B : Statement (.nopImp5B) := ⟨rfl, rfl⟩
theorem nopAbs5C (w : Word) : Statement (.nopAbs5C w) := ⟨rfl, rfl⟩
theorem eorAbsX (w : Word) : Statement (.eorAbsX w) := ⟨rfl, rfl⟩
theorem lsrAbsX (w : Word) : Statement (.lsrAbsX w) := ⟨rfl, rfl⟩
theorem bbr5 (z : Byte) (r : Byte) : Statement (.bbr5 z r) := ⟨rfl, rfl⟩
theorem rts : Statement (.rts) := ⟨rfl, rfl⟩
theorem adcIndX (z : Byte) : Statement (.adcIndX z) := ⟨rfl, rfl⟩
theorem nopImm62 (v : Byte) : Statement (.nopImm62 v) := ⟨rfl, rfl⟩
theorem nopImp63 : Statement (.nopImp63) := ⟨rfl, rfl⟩
theorem stzZp (z : Byte) : Statement (.stzZp z) := ⟨rfl, rfl⟩
theorem adcZp (z : Byte) : Statement (.adcZp z) := ⟨rfl, rfl⟩
theorem rorZp (z : Byte) : Statement (.rorZp z) := ⟨rfl, rfl⟩
theorem rmb6 (z : Byte) : Statement (.rmb6 z) := ⟨rfl, rfl⟩
theorem pla : Statement (.pla) := ⟨rfl, rfl⟩
theorem adcImm (v : Byte) : Statement (.adcImm v) := ⟨rfl, rfl⟩
theorem rorAcc : Statement (.rorAcc) := ⟨rfl, rfl⟩
theorem nopImp6B : Statement (.nopImp6B) := ⟨rfl, rfl⟩
theorem jmpInd (w : Word) : Statement (.jmpInd w) := ⟨rfl, rfl⟩
theorem adcAbs (w : Word) : Statement (.adcAbs w) := ⟨rfl, rfl⟩
theorem rorAbs (w : Word) : Statement (.rorAbs w) := ⟨rfl, rfl⟩
theorem bbr6 (z : Byte) (r : Byte) : Statement (.bbr6 z r) := ⟨rfl, rfl⟩
theorem bvs (r : Byte) : Statement (.bvs r) := ⟨rfl, rfl⟩
theorem adcIndY (z : Byte) : Statement (.adcIndY z) := ⟨rfl, rfl⟩
theorem adcZpInd (z : Byte) : Statement (.adcZpInd z) := ⟨rfl, rfl⟩
theorem nopImp73 : Statement (.nopImp73) := ⟨rfl, rfl⟩
theorem stzZpX (z : Byte) : Statement (.stzZpX z) := ⟨rfl, rfl⟩
theorem adcZpX (z : Byte) : Statement (.adcZpX z) := ⟨rfl, rfl⟩
theorem rorZpX (z : Byte) : Statement (.rorZpX z) := ⟨rfl, rfl⟩
theorem rmb7 (z : Byte) : Statement (.rmb7 z) := ⟨rfl, rfl⟩
theorem sei : Statement (.sei) := ⟨rfl, rfl⟩
theorem adcAbsY (w : Word) : Statement (.adcAbsY w) := ⟨rfl, rfl⟩
theorem ply : Statement (.ply) := ⟨rfl, rfl⟩
theorem nopImp7B : Statement (.nopImp7B) := ⟨rfl, rfl⟩
theorem jmpAbsIndX (w : Word) : Statement (.jmpAbsIndX w) := ⟨rfl, rfl⟩
theorem adcAbsX (w : Word) : Statement (.adcAbsX w) := ⟨rfl, rfl⟩
theorem rorAbsX (w : Word) : Statement (.rorAbsX w) := ⟨rfl, rfl⟩
theorem bbr7 (z : Byte) (r : Byte) : Statement (.bbr7 z r) := ⟨rfl, rfl⟩
theorem bra (r : Byte) : Statement (.bra r) := ⟨rfl, rfl⟩
theorem staIndX (z : Byte) : Statement (.staIndX z) := ⟨rfl, rfl⟩
theorem nopImm82 (v : Byte) : Statement (.nopImm82 v) := ⟨rfl, rfl⟩
theorem nopImp83 : Statement (.nopImp83) := ⟨rfl, rfl⟩
theorem styZp (z : Byte) : Statement (.styZp z) := ⟨rfl, rfl⟩
theorem staZp (z : Byte) : Statement (.staZp z) := ⟨rfl, rfl⟩
theorem stxZp (z : Byte) : Statement (.stxZp z) := ⟨rfl, rfl⟩
theorem smb0 (z : Byte) : Statement (.smb0 z) := ⟨rfl, rfl⟩
theorem dey : Statement (.dey) := ⟨rfl, rfl⟩
theorem bitImm (v : Byte) : Statement (.bitImm v) := ⟨rfl, rfl⟩
theorem txa : Statement (.txa) := ⟨rfl, rfl⟩
theorem nopImp8B : Statement (.nopImp8B) := ⟨rfl, rfl⟩
theorem styAbs (w : Word) : Statement (.styAbs w) := ⟨rfl, rfl⟩
theorem staAbs (w : Word) : Statement (.staAbs w) := ⟨rfl, rfl⟩
theorem stxAbs (w : Word) : Statement (.stxAbs w) := ⟨rfl, rfl⟩
theorem bbs0 (z : Byte) (r : Byte) : Statement (.bbs0 z r) := ⟨rfl, rfl⟩
theorem bcc (r : Byte) : Statement (.bcc r) := ⟨rfl, rfl⟩
theorem staIndY (z : Byte) : Statement (.staIndY z) := ⟨rfl, rfl⟩
theorem staZpInd (z : Byte) : Statement (.staZpInd z) := ⟨rfl, rfl⟩
theorem nopImp93 : Statement (.nopImp93) := ⟨rfl, rfl⟩
theorem styZpX (z : Byte) : Statement (.styZpX z) := ⟨rfl, rfl⟩
theorem staZpX (z : Byte) : Statement (.staZpX z) := ⟨rfl, rfl⟩
theorem stxZpY (z : Byte) : Statement (.stxZpY z) := ⟨rfl, rfl⟩
theorem smb1 (z : Byte) : Statement (.smb1 z) := ⟨rfl, rfl⟩
theorem tya : Statement (.tya) := ⟨rfl, rfl⟩
theorem staAbsY (w : Word) : Statement (.staAbsY w) := ⟨rfl, rfl⟩
theorem txs : Statement (.txs) := ⟨rfl, rfl⟩
theorem nopImp9B : Statement (.nopImp9B) := ⟨rfl, rfl⟩
theorem stzAbs (w : Word) : Statement (.stzAbs w) := ⟨rfl, rfl⟩
theorem staAbsX (w : Word) : Statement (.staAbsX w) := ⟨rfl, rfl⟩
theorem stzAbsX (w : Word) : Statement (.stzAbsX w) := ⟨rfl, rfl⟩
theorem bbs1 (z : Byte) (r : Byte) : Statement (.bbs1 z r) := ⟨rfl, rfl⟩
theorem ldyImm (v : Byte) : Statement (.ldyImm v) := ⟨rfl, rfl⟩
theorem ldaIndX (z : Byte) : Statement (.ldaIndX z) := ⟨rfl, rfl⟩
theorem ldxImm (v : Byte) : Statement (.ldxImm v) := ⟨rfl, rfl⟩
theorem nopImpA3 : Statement (.nopImpA3) := ⟨rfl, rfl⟩
theorem ldyZp (z : Byte) : Statement (.ldyZp z) := ⟨rfl, rfl⟩
theorem ldaZp (z : Byte) : Statement (.ldaZp z) := ⟨rfl, rfl⟩
theorem ldxZp (z : Byte) : Statement (.ldxZp z) := ⟨rfl, rfl⟩
theorem smb2 (z : Byte) : Statement (.smb2 z) := ⟨rfl, rfl⟩
theorem tay : Statement (.tay) := ⟨rfl, rfl⟩
theorem ldaImm (v : Byte) : Statement (.ldaImm v) := ⟨rfl, rfl⟩
theorem tax : Statement (.tax) := ⟨rfl, rfl⟩
theorem nopImpAB : Statement (.nopImpAB) := ⟨rfl, rfl⟩
theorem ldyAbs (w : Word) : Statement (.ldyAbs w) := ⟨rfl, rfl⟩
theorem ldaAbs (w : Word) : Statement (.ldaAbs w) := ⟨rfl, rfl⟩
theorem ldxAbs (w : Word) : Statement (.ldxAbs w) := ⟨rfl, rfl⟩
theorem bbs2 (z : Byte) (r : Byte) : Statement (.bbs2 z r) := ⟨rfl, rfl⟩
theorem bcs (r : Byte) : Statement (.bcs r) := ⟨rfl, rfl⟩
theorem ldaIndY (z : Byte) : Statement (.ldaIndY z) := ⟨rfl, rfl⟩
theorem ldaZpInd (z : Byte) : Statement (.ldaZpInd z) := ⟨rfl, rfl⟩
theorem nopImpB3 : Statement (.nopImpB3) := ⟨rfl, rfl⟩
theorem ldyZpX (z : Byte) : Statement (.ldyZpX z) := ⟨rfl, rfl⟩
theorem ldaZpX (z : Byte) : Statement (.ldaZpX z) := ⟨rfl, rfl⟩
theorem ldxZpY (z : Byte) : Statement (.ldxZpY z) := ⟨rfl, rfl⟩
theorem smb3 (z : Byte) : Statement (.smb3 z) := ⟨rfl, rfl⟩
theorem clv : Statement (.clv) := ⟨rfl, rfl⟩
theorem ldaAbsY (w : Word) : Statement (.ldaAbsY w) := ⟨rfl, rfl⟩
theorem tsx : Statement (.tsx) := ⟨rfl, rfl⟩
theorem nopImpBB : Statement (.nopImpBB) := ⟨rfl, rfl⟩
theorem ldyAbsX (w : Word) : Statement (.ldyAbsX w) := ⟨rfl, rfl⟩
theorem ldaAbsX (w : Word) : Statement (.ldaAbsX w) := ⟨rfl, rfl⟩
theorem ldxAbsY (w : Word) : Statement (.ldxAbsY w) := ⟨rfl, rfl⟩
theorem bbs3 (z : Byte) (r : Byte) : Statement (.bbs3 z r) := ⟨rfl, rfl⟩
theorem cpyImm (v : Byte) : Statement (.cpyImm v) := ⟨rfl, rfl⟩
theorem cmpIndX (z : Byte) : Statement (.cmpIndX z) := ⟨rfl, rfl⟩
theorem nopImmC2 (v : Byte) : Statement (.nopImmC2 v) := ⟨rfl, rfl⟩
theorem nopImpC3 : Statement (.nopImpC3) := ⟨rfl, rfl⟩
theorem cpyZp (z : Byte) : Statement (.cpyZp z) := ⟨rfl, rfl⟩
theorem cmpZp (z : Byte) : Statement (.cmpZp z) := ⟨rfl, rfl⟩
theorem decZp (z : Byte) : Statement (.decZp z) := ⟨rfl, rfl⟩
theorem smb4 (z : Byte) : Statement (.smb4 z) := ⟨rfl, rfl⟩
theorem iny : Statement (.iny) := ⟨rfl, rfl⟩
theorem cmpImm (v : Byte) : Statement (.cmpImm v) := ⟨rfl, rfl⟩
theorem dex : Statement (.dex) := ⟨rfl, rfl⟩
theorem wai : Statement (.wai) := ⟨rfl, rfl⟩
theorem cpyAbs (w : Word) : Statement (.cpyAbs w) := ⟨rfl, rfl⟩
theorem cmpAbs (w : Word) : Statement (.cmpAbs w) := ⟨rfl, rfl⟩
theorem decAbs (w : Word) : Statement (.decAbs w) := ⟨rfl, rfl⟩
theorem bbs4 (z : Byte) (r : Byte) : Statement (.bbs4 z r) := ⟨rfl, rfl⟩
theorem bne (r : Byte) : Statement (.bne r) := ⟨rfl, rfl⟩
theorem cmpIndY (z : Byte) : Statement (.cmpIndY z) := ⟨rfl, rfl⟩
theorem cmpZpInd (z : Byte) : Statement (.cmpZpInd z) := ⟨rfl, rfl⟩
theorem nopImpD3 : Statement (.nopImpD3) := ⟨rfl, rfl⟩
theorem nopZpXD4 (z : Byte) : Statement (.nopZpXD4 z) := ⟨rfl, rfl⟩
theorem cmpZpX (z : Byte) : Statement (.cmpZpX z) := ⟨rfl, rfl⟩
theorem decZpX (z : Byte) : Statement (.decZpX z) := ⟨rfl, rfl⟩
theorem smb5 (z : Byte) : Statement (.smb5 z) := ⟨rfl, rfl⟩
theorem cld : Statement (.cld) := ⟨rfl, rfl⟩
theorem cmpAbsY (w : Word) : Statement (.cmpAbsY w) := ⟨rfl, rfl⟩
theorem phx : Statement (.phx) := ⟨rfl, rfl⟩
theorem stp : Statement (.stp) := ⟨rfl, rfl⟩
theorem nopAbsDC (w : Word) : Statement (.nopAbsDC w) := ⟨rfl, rfl⟩
theorem cmpAbsX (w : Word) : Statement (.cmpAbsX w) := ⟨rfl, rfl⟩
theorem decAbsX (w : Word) : Statement (.decAbsX w) := ⟨rfl, rfl⟩
theorem bbs5 (z : Byte) (r : Byte) : Statement (.bbs5 z r) := ⟨rfl, rfl⟩
theorem cpxImm (v : Byte) : Statement (.cpxImm v) := ⟨rfl, rfl⟩
theorem sbcIndX (z : Byte) : Statement (.sbcIndX z) := ⟨rfl, rfl⟩
theorem nopImmE2 (v : Byte) : Statement (.nopImmE2 v) := ⟨rfl, rfl⟩
theorem nopImpE3 : Statement (.nopImpE3) := ⟨rfl, rfl⟩
theorem cpxZp (z : Byte) : Statement (.cpxZp z) := ⟨rfl, rfl⟩
theorem sbcZp (z : Byte) : Statement (.sbcZp z) := ⟨rfl, rfl⟩
theorem incZp (z : Byte) : Statement (.incZp z) := ⟨rfl, rfl⟩
theorem smb6 (z : Byte) : Statement (.smb6 z) := ⟨rfl, rfl⟩
theorem inx : Statement (.inx) := ⟨rfl, rfl⟩
theorem sbcImm (v : Byte) : Statement (.sbcImm v) := ⟨rfl, rfl⟩
theorem nop : Statement (.nop) := ⟨rfl, rfl⟩
theorem nopImpEB : Statement (.nopImpEB) := ⟨rfl, rfl⟩
theorem cpxAbs (w : Word) : Statement (.cpxAbs w) := ⟨rfl, rfl⟩
theorem sbcAbs (w : Word) : Statement (.sbcAbs w) := ⟨rfl, rfl⟩
theorem incAbs (w : Word) : Statement (.incAbs w) := ⟨rfl, rfl⟩
theorem bbs6 (z : Byte) (r : Byte) : Statement (.bbs6 z r) := ⟨rfl, rfl⟩
theorem beq (r : Byte) : Statement (.beq r) := ⟨rfl, rfl⟩
theorem sbcIndY (z : Byte) : Statement (.sbcIndY z) := ⟨rfl, rfl⟩
theorem sbcZpInd (z : Byte) : Statement (.sbcZpInd z) := ⟨rfl, rfl⟩
theorem nopImpF3 : Statement (.nopImpF3) := ⟨rfl, rfl⟩
theorem nopZpXF4 (z : Byte) : Statement (.nopZpXF4 z) := ⟨rfl, rfl⟩
theorem sbcZpX (z : Byte) : Statement (.sbcZpX z) := ⟨rfl, rfl⟩
theorem incZpX (z : Byte) : Statement (.incZpX z) := ⟨rfl, rfl⟩
theorem smb7 (z : Byte) : Statement (.smb7 z) := ⟨rfl, rfl⟩
theorem sed : Statement (.sed) := ⟨rfl, rfl⟩
theorem sbcAbsY (w : Word) : Statement (.sbcAbsY w) := ⟨rfl, rfl⟩
theorem plx : Statement (.plx) := ⟨rfl, rfl⟩
theorem nopImpFB : Statement (.nopImpFB) := ⟨rfl, rfl⟩
theorem nopAbsFC (w : Word) : Statement (.nopAbsFC w) := ⟨rfl, rfl⟩
theorem sbcAbsX (w : Word) : Statement (.sbcAbsX w) := ⟨rfl, rfl⟩
theorem incAbsX (w : Word) : Statement (.incAbsX w) := ⟨rfl, rfl⟩
theorem bbs7 (z : Byte) (r : Byte) : Statement (.bbs7 z r) := ⟨rfl, rfl⟩

end Sys2Proof.Laws.EncodeLength
end

