-- ==== Sys2Proof/Laws/Step.lean ====
section
/-! SUPPORT. What one step can do, said once: the fetch, the cases of a step that answers a next state, and those of
a step that faults. -/

namespace Sys2Proof.Machine

/-- A fetch that answers read an opcode and its operand bytes. -/
theorem fetch_eq_ok {s : State} {p : Instr × Word} (h : fetch s = .ok p) :
    ∃ op : Byte, s.bus.read s.PC = .ok op ∧
      ((decodeOpcode op = .f1 p.1 ∧ p.2 = s.PC + 1#16) ∨
       (∃ make op1, decodeOpcode op = .f2 make ∧ s.bus.read (s.PC + 1#16) = .ok op1 ∧ p = (make op1, s.PC + 2#16)) ∨
       (∃ make op1 op2, decodeOpcode op = .f3 make ∧ s.bus.read (s.PC + 1#16) = .ok op1 ∧
          s.bus.read (s.PC + 2#16) = .ok op2 ∧ p = (make op1 op2, s.PC + 3#16))) := by
  obtain ⟨op, h0, h⟩ := bind_eq_ok.1 h
  refine ⟨op, readByte_eq_ok.1 h0, ?_⟩
  cases hf : decodeOpcode op with
  | f1 i =>
    simp only [hf] at h
    cases h
    exact .inl ⟨rfl, rfl⟩
  | f2 make =>
    simp only [hf] at h
    obtain ⟨op1, h1, h⟩ := bind_eq_ok.1 h
    cases h
    exact .inr (.inl ⟨make, op1, rfl, readByte_eq_ok.1 h1, rfl⟩)
  | f3 make =>
    simp only [hf] at h
    obtain ⟨op1, h1, h⟩ := bind_eq_ok.1 h
    obtain ⟨op2, h2, h⟩ := bind_eq_ok.1 h
    cases h
    exact .inr (.inr ⟨make, op1, op2, rfl, readByte_eq_ok.1 h1, readByte_eq_ok.1 h2, rfl⟩)

theorem fetch_f1 {s : State} {op : Byte} {i : Instr} (h : readByte s.PC s = .ok op)
    (hf : decodeOpcode op = .f1 i) : fetch s = .ok (i, s.PC + 1#16) := by
  simp only [fetch, h, ok_bind, hf, pure_eq]

theorem fetch_f2 {s : State} {op op1 : Byte} {make : Byte → Instr} (h : readByte s.PC s = .ok op)
    (hf : decodeOpcode op = .f2 make) (h1 : readByte (s.PC + 1#16) s = .ok op1) :
    fetch s = .ok (make op1, s.PC + 2#16) := by
  simp only [fetch, h, ok_bind, hf, h1, pure_eq]

theorem fetch_f3 {s : State} {op op1 op2 : Byte} {make : Byte → Byte → Instr} (h : readByte s.PC s = .ok op)
    (hf : decodeOpcode op = .f3 make) (h1 : readByte (s.PC + 1#16) s = .ok op1)
    (h2 : readByte (s.PC + 2#16) s = .ok op2) : fetch s = .ok (make op1 op2, s.PC + 3#16) := by
  simp only [fetch, h, ok_bind, hf, h1, h2, pure_eq]

/-- A fetch that fails names a byte that cannot be read. -/
theorem fetch_fault {n : Nat} {s : State} {f : Fault} (h : fetch s = .error f) : FaultOf n s.bus f := by
  obtain h | ⟨op, -, h⟩ := bind_eq_error.1 h
  · exact readByte_fault h
  cases hf : decodeOpcode op with
  | f1 i => simp [hf] at h
  | f2 make =>
    simp only [hf] at h
    obtain h | ⟨op1, -, h⟩ := bind_eq_error.1 h
    · exact readByte_fault h
    · cases h
  | f3 make =>
    simp only [hf] at h
    obtain h | ⟨op1, -, h⟩ := bind_eq_error.1 h
    · exact readByte_fault h
    obtain h | ⟨op2, -, h⟩ := bind_eq_error.1 h
    · exact readByte_fault h
    · cases h

theorem endOfStep_eq (s : State) : endOfStep s = if s.mode = .stopped then .ok s else interruptCheck s := by
  unfold endOfStep
  cases s.mode <;> rfl

/-- A Running step is the fetch, the instruction and what follows it. -/
theorem step_running {s : State} (h : s.mode = .running) :
    step s = match fetch s with
      | .error f => .fault f
      | .ok (i, next) => finishStep (exec i { s with PC := next }) := by
  cases s
  subst h
  rfl

/-- A step that answers a next state: a hold, a wake, or an instruction and the check after it. -/
theorem step_cases {s t : State} (h : step s = .next t) :
    (s.mode ≠ .running ∧ t = s) ∨
    (s.mode = .waiting ∧ wakes s = true ∧ interruptCheck { s with mode := .running } = .ok t) ∨
    (s.mode = .running ∧ ∃ i next u, fetch s = .ok (i, next) ∧ exec i { s with PC := next } = .next u ∧
      ((u.mode = .stopped ∧ t = u) ∨ (u.mode ≠ .stopped ∧ interruptCheck u = .ok t))) := by
  unfold step at h
  cases hm : s.mode with
  | stopped =>
    simp only [hm] at h
    exact .inl ⟨nofun, (Host.Outcome.next.inj h).symm⟩
  | waiting =>
    simp only [hm] at h
    split at h
    · rename_i hw
      exact .inr (.inl ⟨rfl, hw, answer_eq_next.1 h⟩)
    · exact .inl ⟨nofun, (Host.Outcome.next.inj h).symm⟩
  | running =>
    simp only [hm] at h
    cases hf : fetch s with
    | error f => rw [hf] at h; cases h
    | ok p =>
      obtain ⟨i, next⟩ := p
      rw [hf] at h
      simp only at h
      cases he : exec i { s with PC := next } with
      | next u =>
        rw [hm] at he
        rw [he] at h
        have e := answer_eq_next.1 h
        rw [endOfStep_eq] at e
        refine .inr (.inr ⟨rfl, i, next, u, rfl, he, ?_⟩)
        split at e
        · rename_i hu; exact .inl ⟨hu, (Except.ok.inj e).symm⟩
        · rename_i hu; exact .inr ⟨hu, e⟩
      | fault f => rw [hm] at he; rw [he] at h; cases h
      | refused r => rw [hm] at he; rw [he] at h; cases h

/-- A step that faults: the check of a wake, the fetch, the instruction, or the check after it. -/
theorem step_fault_cases {s : State} {f : Fault} (h : step s = .fault f) :
    (s.mode = .waiting ∧ interruptCheck { s with mode := .running } = .error f) ∨
    (s.mode = .running ∧ (fetch s = .error f ∨ ∃ i next, fetch s = .ok (i, next) ∧
      (exec i { s with PC := next } = .fault f ∨
        ∃ u, exec i { s with PC := next } = .next u ∧ interruptCheck u = .error f))) := by
  unfold step at h
  cases hm : s.mode with
  | stopped => simp only [hm] at h; cases h
  | waiting =>
    simp only [hm] at h
    split at h
    · exact .inl ⟨rfl, answer_eq_fault.1 h⟩
    · cases h
  | running =>
    refine .inr ⟨rfl, ?_⟩
    simp only [hm] at h
    cases hf : fetch s with
    | error g => rw [hf] at h; cases h; exact .inl rfl
    | ok p =>
      obtain ⟨i, next⟩ := p
      rw [hf] at h
      simp only at h
      refine .inr ⟨i, next, rfl, ?_⟩
      cases he : exec i { s with PC := next } with
      | next u =>
        rw [hm] at he
        rw [he] at h
        have e := answer_eq_fault.1 h
        rw [endOfStep_eq] at e
        split at e
        · cases e
        · exact .inr ⟨u, he, e⟩
      | fault g => rw [hm] at he; rw [he] at h; cases h; exact .inl he
      | refused r => rw [hm] at he; rw [he] at h; cases h

/-- The check changes no parameter. -/
theorem interruptCheck_params {s t : State} (h : interruptCheck s = .ok t) : t.params = s.params := by
  have key : ∀ k, enterInterrupt k s = .ok t → t.params = s.params := by
    intro k e
    obtain ⟨u, hu, rfl⟩ := enterInterrupt_eq_ok.1 e
    obtain ⟨b1, b2, b3, lo, hi, -, -, -, -, -, rfl⟩ := enterVector_eq_ok.1 hu
    cases k <;> rfl
  obtain ⟨-, e⟩ | ⟨-, -, e⟩ | ⟨-, -, e⟩ := interruptCheck_cases s
  · exact key _ (e.symm.trans h)
  · exact key _ (e.symm.trans h)
  · cases e.symm.trans h; rfl

end Sys2Proof.Machine
end

