-- ==== Sys2Proof/Tests/Slice0.lean ====
section
/-! SUPPORT. Our own tests: the ill-formed terms that the checks refuse; every opcode decoded from words written
out from spec/opcode_table.json; worked vectors of spec/95_test_vectors.md, each named after its row and each one
step; one step over address spaces of other implementations; and for every obligation with hypotheses a state that
meets them. Every expected value is the spec's. -/

open Sys2Proof
open Sys2Proof.Machine

namespace Sys2Proof.Tests

/-! ### Helpers -/

/-- The parameters the vectors are worked out with: the spec's defaults, the two decimal functions included. -/
def specParams : Params := { serviceGate := true, interruptClearsD := true, decimal := .w65c02s }

/-- A harness memory with the listed bytes, and holes that answer Unimplemented to reads and writes. -/
def ram (cells : List (Nat × Byte)) (holes : List Word) : AddressSpace :=
  .harness { mem := cells, holes := holes.map fun a => { addr := a, blocksRead := true, blocksWrite := true, tag := 0 } }

/-- The start state of the vectors (95_test_vectors.md, conventions). -/
def start : State :=
  { A := 0x00#8, X := 0x00#8, Y := 0x00#8, SP := 0xFF#8, PC := 0x0000#16, N := false, V := false, D := false,
    I := false, Z := false, C := false, pendingNmi := false, pendingIrq := false, inService := false,
    mode := .running, bus := ram [] [], params := specParams }

/-- What a view shows of the state one step leads to. -/
def after {α : Type} (s : State) (view : State → α) : Option α :=
  match step s with
  | .next t => some (view t)
  | .fault _ | .refused _ => none

/-- The six flags in the order N V D I Z C. -/
def flags (s : State) : List Bool := [s.N, s.V, s.D, s.I, s.Z, s.C]

/-- A row of the opcode map, each opcode followed by the bytes 0x34 and 0x12. -/
def mapRow (row : Nat) : List Instr :=
  (List.range 16).filterMap fun col =>
    match decode [BitVec.ofNat 8 (row * 16 + col), 0x34#8, 0x12#8] with
    | .ok (i, _) => some i
    | .error _ => none

/-! ### Well-formedness: one ill-formed term for each check -/

theorem test_wf_instruction : (Instr.ldaImm 0x42#8).wellFormed = true := by rfl
theorem test_wf_no_bytes_refused : codeWellFormed [] = false := by rfl
theorem test_wf_missing_operand_refused : codeWellFormed [0xA9#8] = false := by rfl
theorem test_wf_extra_byte_refused : codeWellFormed [0xEA#8, 0x00#8] = false := by rfl
theorem test_decode_missing_operand_named : decode [0xAD#8, 0x34#8] = .error (.missingOperand 0xAD#8) := by rfl
theorem test_decode_no_opcode_named : decode [] = .error .noOpcode := by rfl

theorem test_wf_memory_unsorted_refused : Memory.wf [(5, 0x01#8), (4, 0x02#8)] = false := by decide
theorem test_wf_memory_repeat_refused : Memory.wf [(5, 0x01#8), (5, 0x02#8)] = false := by decide
theorem test_wf_memory_unlisted_value_refused : Memory.wf [(5, 0x00#8)] = false := by decide
theorem test_wf_harness_key_outside_refused :
    Harness.wf { mem := [(0x10000, 0x01#8)], holes := [] } = false := by decide

/-- A small Handheld: OTP_LEN 300, one OTP byte, two flash bytes, a map of three core addresses. -/
def pocket : Handheld :=
  { otpLen := 300, otp := [(0, 0x07#8), (212, 0xA5#8)], flash := [(0, 0x3C#8), (0x1FFFFF, 0x5A#8)],
    cpuToMcu := [(0x0200, 0x0200000#26), (0x0201, 0x0600000#26), (0x0202, 0x0000200#26)] }

theorem test_wf_pocket : pocket.wf = true := by decide
theorem test_wf_otp_len_zero_refused : Handheld.wf { pocket with otpLen := 0, otp := [] } = false := by decide
theorem test_wf_otp_too_long_refused : Handheld.wf { pocket with otp := [(300, 0x01#8)] } = false := by decide
theorem test_wf_flash_too_long_refused : Handheld.wf { pocket with flash := [(0x200000, 0x01#8)] } = false := by
  decide
theorem test_wf_map_unsorted_refused :
    Handheld.wf { pocket with cpuToMcu := [(2, 0#26), (1, 0#26)] } = false := by decide
theorem test_wf_map_outside_refused : Handheld.wf { pocket with cpuToMcu := [(0x10000, 0#26)] } = false := by
  decide

/-! ### Decoding: every opcode, by the words of spec/opcode_table.json -/

theorem test_decode_row_0x : mapRow 0 =
   [.brk 0x34#8, .oraIndX 0x34#8, .nopImm02 0x34#8, .nopImp03, .tsbZp 0x34#8, .oraZp 0x34#8, .aslZp 0x34#8,
    .rmb0 0x34#8, .php, .oraImm 0x34#8, .aslAcc, .nopImp0B, .tsbAbs 0x1234#16, .oraAbs 0x1234#16,
    .aslAbs 0x1234#16, .bbr0 0x34#8 0x12#8] := by
  rfl

theorem test_decode_row_1x : mapRow 1 =
   [.bpl 0x34#8, .oraIndY 0x34#8, .oraZpInd 0x34#8, .nopImp13, .trbZp 0x34#8, .oraZpX 0x34#8,
    .aslZpX 0x34#8, .rmb1 0x34#8, .clc, .oraAbsY 0x1234#16, .incAcc, .nopImp1B, .trbAbs 0x1234#16,
    .oraAbsX 0x1234#16, .aslAbsX 0x1234#16, .bbr1 0x34#8 0x12#8] := by
  rfl

theorem test_decode_row_2x : mapRow 2 =
   [.jsr 0x1234#16, .andIndX 0x34#8, .nopImm22 0x34#8, .nopImp23, .bitZp 0x34#8, .andZp 0x34#8,
    .rolZp 0x34#8, .rmb2 0x34#8, .plp, .andImm 0x34#8, .rolAcc, .nopImp2B, .bitAbs 0x1234#16,
    .andAbs 0x1234#16, .rolAbs 0x1234#16, .bbr2 0x34#8 0x12#8] := by
  rfl

theorem test_decode_row_3x : mapRow 3 =
   [.bmi 0x34#8, .andIndY 0x34#8, .andZpInd 0x34#8, .nopImp33, .bitZpX 0x34#8, .andZpX 0x34#8,
    .rolZpX 0x34#8, .rmb3 0x34#8, .sec, .andAbsY 0x1234#16, .decAcc, .nopImp3B, .bitAbsX 0x1234#16,
    .andAbsX 0x1234#16, .rolAbsX 0x1234#16, .bbr3 0x34#8 0x12#8] := by
  rfl

theorem test_decode_row_4x : mapRow 4 =
   [.rti, .eorIndX 0x34#8, .nopImm42 0x34#8, .nopImp43, .nopZp44 0x34#8, .eorZp 0x34#8, .lsrZp 0x34#8,
    .rmb4 0x34#8, .pha, .eorImm 0x34#8, .lsrAcc, .nopImp4B, .jmpAbs 0x1234#16, .eorAbs 0x1234#16,
    .lsrAbs 0x1234#16, .bbr4 0x34#8 0x12#8] := by
  rfl

theorem test_decode_row_5x : mapRow 5 =
   [.bvc 0x34#8, .eorIndY 0x34#8, .eorZpInd 0x34#8, .nopImp53, .nopZpX54 0x34#8, .eorZpX 0x34#8,
    .lsrZpX 0x34#8, .rmb5 0x34#8, .cli, .eorAbsY 0x1234#16, .phy, .nopImp5B, .nopAbs5C 0x1234#16,
    .eorAbsX 0x1234#16, .lsrAbsX 0x1234#16, .bbr5 0x34#8 0x12#8] := by
  rfl

theorem test_decode_row_6x : mapRow 6 =
   [.rts, .adcIndX 0x34#8, .nopImm62 0x34#8, .nopImp63, .stzZp 0x34#8, .adcZp 0x34#8, .rorZp 0x34#8,
    .rmb6 0x34#8, .pla, .adcImm 0x34#8, .rorAcc, .nopImp6B, .jmpInd 0x1234#16, .adcAbs 0x1234#16,
    .rorAbs 0x1234#16, .bbr6 0x34#8 0x12#8] := by
  rfl

theorem test_decode_row_7x : mapRow 7 =
   [.bvs 0x34#8, .adcIndY 0x34#8, .adcZpInd 0x34#8, .nopImp73, .stzZpX 0x34#8, .adcZpX 0x34#8,
    .rorZpX 0x34#8, .rmb7 0x34#8, .sei, .adcAbsY 0x1234#16, .ply, .nopImp7B, .jmpAbsIndX 0x1234#16,
    .adcAbsX 0x1234#16, .rorAbsX 0x1234#16, .bbr7 0x34#8 0x12#8] := by
  rfl

theorem test_decode_row_8x : mapRow 8 =
   [.bra 0x34#8, .staIndX 0x34#8, .nopImm82 0x34#8, .nopImp83, .styZp 0x34#8, .staZp 0x34#8, .stxZp 0x34#8,
    .smb0 0x34#8, .dey, .bitImm 0x34#8, .txa, .nopImp8B, .styAbs 0x1234#16, .staAbs 0x1234#16,
    .stxAbs 0x1234#16, .bbs0 0x34#8 0x12#8] := by
  rfl

theorem test_decode_row_9x : mapRow 9 =
   [.bcc 0x34#8, .staIndY 0x34#8, .staZpInd 0x34#8, .nopImp93, .styZpX 0x34#8, .staZpX 0x34#8,
    .stxZpY 0x34#8, .smb1 0x34#8, .tya, .staAbsY 0x1234#16, .txs, .nopImp9B, .stzAbs 0x1234#16,
    .staAbsX 0x1234#16, .stzAbsX 0x1234#16, .bbs1 0x34#8 0x12#8] := by
  rfl

theorem test_decode_row_Ax : mapRow 10 =
   [.ldyImm 0x34#8, .ldaIndX 0x34#8, .ldxImm 0x34#8, .nopImpA3, .ldyZp 0x34#8, .ldaZp 0x34#8,
    .ldxZp 0x34#8, .smb2 0x34#8, .tay, .ldaImm 0x34#8, .tax, .nopImpAB, .ldyAbs 0x1234#16,
    .ldaAbs 0x1234#16, .ldxAbs 0x1234#16, .bbs2 0x34#8 0x12#8] := by
  rfl

theorem test_decode_row_Bx : mapRow 11 =
   [.bcs 0x34#8, .ldaIndY 0x34#8, .ldaZpInd 0x34#8, .nopImpB3, .ldyZpX 0x34#8, .ldaZpX 0x34#8,
    .ldxZpY 0x34#8, .smb3 0x34#8, .clv, .ldaAbsY 0x1234#16, .tsx, .nopImpBB, .ldyAbsX 0x1234#16,
    .ldaAbsX 0x1234#16, .ldxAbsY 0x1234#16, .bbs3 0x34#8 0x12#8] := by
  rfl

theorem test_decode_row_Cx : mapRow 12 =
   [.cpyImm 0x34#8, .cmpIndX 0x34#8, .nopImmC2 0x34#8, .nopImpC3, .cpyZp 0x34#8, .cmpZp 0x34#8,
    .decZp 0x34#8, .smb4 0x34#8, .iny, .cmpImm 0x34#8, .dex, .wai, .cpyAbs 0x1234#16, .cmpAbs 0x1234#16,
    .decAbs 0x1234#16, .bbs4 0x34#8 0x12#8] := by
  rfl

theorem test_decode_row_Dx : mapRow 13 =
   [.bne 0x34#8, .cmpIndY 0x34#8, .cmpZpInd 0x34#8, .nopImpD3, .nopZpXD4 0x34#8, .cmpZpX 0x34#8,
    .decZpX 0x34#8, .smb5 0x34#8, .cld, .cmpAbsY 0x1234#16, .phx, .stp, .nopAbsDC 0x1234#16,
    .cmpAbsX 0x1234#16, .decAbsX 0x1234#16, .bbs5 0x34#8 0x12#8] := by
  rfl

theorem test_decode_row_Ex : mapRow 14 =
   [.cpxImm 0x34#8, .sbcIndX 0x34#8, .nopImmE2 0x34#8, .nopImpE3, .cpxZp 0x34#8, .sbcZp 0x34#8,
    .incZp 0x34#8, .smb6 0x34#8, .inx, .sbcImm 0x34#8, .nop, .nopImpEB, .cpxAbs 0x1234#16,
    .sbcAbs 0x1234#16, .incAbs 0x1234#16, .bbs6 0x34#8 0x12#8] := by
  rfl

theorem test_decode_row_Fx : mapRow 15 =
   [.beq 0x34#8, .sbcIndY 0x34#8, .sbcZpInd 0x34#8, .nopImpF3, .nopZpXF4 0x34#8, .sbcZpX 0x34#8,
    .incZpX 0x34#8, .smb7 0x34#8, .sed, .sbcAbsY 0x1234#16, .plx, .nopImpFB, .nopAbsFC 0x1234#16,
    .sbcAbsX 0x1234#16, .incAbsX 0x1234#16, .bbs7 0x34#8 0x12#8] := by
  rfl

/-! ### Vectors of spec/95_test_vectors.md, one step each -/

/-- V-AM3 (R135): ZeroPageX wraps in page zero. -/
theorem test_V_AM3 :
    after { start with
        PC := 0x0200#16, X := 0x20#8,
        bus := ram [(0x0010, 0x55#8), (0x0110, 0xEE#8), (0x0200, 0xB5#8), (0x0201,
          0xF0#8)] [] } (fun t => (t.A, t.PC, flags t)) =
      some (0x55#8, 0x0202#16, [false, false, false, false, false, false]) := by
  rfl

/-- V-AM4 (R136): ZeroPageY wraps in page zero. -/
theorem test_V_AM4 :
    after { start with
        PC := 0x0200#16, Y := 0x02#8,
        bus := ram [(0x0001, 0x33#8), (0x0200, 0xB6#8), (0x0201, 0xFF#8)] [] } (fun t => (t.X, t.PC, flags t)) =
      some (0x33#8, 0x0202#16, [false, false, false, false, false, false]) := by
  rfl

/-- V-AM7 (R138): AbsoluteX wraps at 0xFFFF. -/
theorem test_V_AM7 :
    after { start with
        PC := 0x0200#16, X := 0x02#8,
        bus := ram [(0x0001, 0x44#8), (0x0200, 0xBD#8), (0x0201, 0xFF#8), (0x0202,
          0xFF#8)] [] } (fun t => (t.A, t.PC, flags t)) =
      some (0x44#8, 0x0203#16, [false, false, false, false, false, false]) := by
  rfl

/-- V-AM9 (R140): ZeroPageIndirect, pointer at 0xFF wraps to 0x00. -/
theorem test_V_AM9 :
    after { start with
        PC := 0x0200#16,
        bus := ram [(0x0000, 0x40#8), (0x0200, 0xB2#8), (0x0201, 0xFF#8), (0x4000,
          0x5A#8)] [] } (fun t => (t.A, t.PC, flags t)) =
      some (0x5A#8, 0x0202#16, [false, false, false, false, false, false]) := by
  rfl

/-- V-AM10 (R141): IndirectX, pointer index wraps. -/
theorem test_V_AM10 :
    after { start with
        PC := 0x0200#16, X := 0x03#8,
        bus := ram [(0x0001, 0x74#8), (0x0002, 0x20#8), (0x0200, 0xA1#8), (0x0201, 0xFE#8), (0x2074,
          0x11#8)] [] } (fun t => (t.A, t.PC, flags t)) =
      some (0x11#8, 0x0202#16, [false, false, false, false, false, false]) := by
  rfl

/-- V-AM11 (R142): IndirectY, Y carries into high byte. -/
theorem test_V_AM11 :
    after { start with
        PC := 0x0200#16, Y := 0x10#8,
        bus := ram [(0x0086, 0x28#8), (0x0087, 0x40#8), (0x0200, 0xB1#8), (0x0201, 0x86#8), (0x4038,
          0x22#8)] [] } (fun t => (t.A, t.PC, flags t)) =
      some (0x22#8, 0x0202#16, [false, false, false, false, false, false]) := by
  rfl

/-- V-AM12 (R142): IndirectY, base 0xFFFF + Y wraps. -/
theorem test_V_AM12 :
    after { start with
        PC := 0x0200#16, Y := 0x01#8,
        bus := ram [(0x0000, 0x66#8), (0x0020, 0xFF#8), (0x0021, 0xFF#8), (0x0200, 0xB1#8), (0x0201,
          0x20#8)] [] } (fun t => (t.A, t.PC, flags t)) =
      some (0x66#8, 0x0202#16, [false, false, false, false, false, false]) := by
  rfl

/-- V-AM13 (R143): Indirect, no page wrap of the pointer. -/
theorem test_V_AM13 :
    after { start with
        PC := 0x0200#16,
        bus := ram [(0x0200, 0x6C#8), (0x0201, 0xFF#8), (0x0202, 0x12#8), (0x1200, 0x70#8), (0x1300,
          0x90#8)] [] } (fun t => (t.PC, flags t)) =
      some (0x9000#16, [false, false, false, false, false, false]) := by
  rfl

/-- V-AM14 (R144): AbsoluteIndexedIndirect. -/
theorem test_V_AM14 :
    after { start with
        PC := 0x0200#16, X := 0x04#8,
        bus := ram [(0x0200, 0x7C#8), (0x0202, 0x10#8), (0x1004, 0x34#8), (0x1005,
          0x12#8)] [] } (fun t => (t.PC, flags t)) =
      some (0x1234#16, [false, false, false, false, false, false]) := by
  rfl

/-- V-LS1 (R160): LDA #0 sets Z. -/
theorem test_V_LS1 :
    after { start with
        PC := 0x0200#16, N := true,
        bus := ram [(0x0200, 0xA9#8)] [] } (fun t => (t.PC, flags t)) =
      some (0x0202#16, [false, false, false, false, true, false]) := by
  rfl

/-- V-LS3 (R161): LDX abs,Y. -/
theorem test_V_LS3 :
    after { start with
        PC := 0x0200#16, Y := 0x05#8,
        bus := ram [(0x0200, 0xBE#8), (0x0202, 0x02#8), (0x0205, 0xFF#8)] [] } (fun t => (t.X, t.PC, flags t)) =
      some (0xFF#8, 0x0203#16, [true, false, false, false, false, false]) := by
  rfl

/-- V-LS4 (R162): LDY zp,X. -/
theorem test_V_LS4 :
    after { start with
        PC := 0x0200#16, X := 0x01#8,
        bus := ram [(0x0200, 0xB4#8), (0x0201, 0x10#8)] [] } (fun t => (t.PC, flags t)) =
      some (0x0202#16, [false, false, false, false, true, false]) := by
  rfl

/-- V-LS5 (R163): STA (zp),Y. -/
theorem test_V_LS5 :
    after { start with
        PC := 0x0200#16, A := 0x5A#8, Y := 0x02#8,
        bus := ram [(0x0041, 0x03#8), (0x0200, 0x91#8), (0x0201, 0x40#8)] [] } (fun t => (t.PC,
          t.bus.read 0x0302#16, flags t)) =
      some (0x0202#16, .ok 0x5A#8, [false, false, false, false, false, false]) := by
  rfl

/-- V-LS7 (R164): STX zp,Y wraps. -/
theorem test_V_LS7 :
    after { start with
        PC := 0x0200#16, X := 0x77#8, Y := 0x11#8,
        bus := ram [(0x0200, 0x96#8), (0x0201, 0xFF#8)] [] } (fun t => (t.PC, t.bus.read 0x0010#16, flags t)) =
      some (0x0202#16, .ok 0x77#8, [false, false, false, false, false, false]) := by
  rfl

/-- V-LS8 (R165): STY abs. -/
theorem test_V_LS8 :
    after { start with
        PC := 0x0200#16, Y := 0x7F#8,
        bus := ram [(0x0200, 0x8C#8), (0x0201, 0x34#8), (0x0202, 0x12#8)] [] } (fun t => (t.PC,
          t.bus.read 0x1234#16, flags t)) =
      some (0x0203#16, .ok 0x7F#8, [false, false, false, false, false, false]) := by
  rfl

/-- V-LS9 (R166): STZ abs,X. -/
theorem test_V_LS9 :
    after { start with
        PC := 0x0200#16, X := 0x01#8,
        bus := ram [(0x0200, 0x9E#8), (0x0202, 0x03#8), (0x0301, 0xAA#8)] [] } (fun t => (t.PC,
          t.bus.read 0x0301#16, flags t)) =
      some (0x0203#16, .ok 0x00#8, [false, false, false, false, false, false]) := by
  rfl

/-- V-LS10 (R167): TAX. -/
theorem test_V_LS10 :
    after { start with
        PC := 0x0200#16, A := 0x80#8,
        bus := ram [(0x0200, 0xAA#8)] [] } (fun t => (t.X, t.PC, flags t)) =
      some (0x80#8, 0x0201#16, [true, false, false, false, false, false]) := by
  rfl

/-- V-LS11 (R168): TAY zero. -/
theorem test_V_LS11 :
    after { start with
        PC := 0x0200#16, Y := 0x11#8,
        bus := ram [(0x0200, 0xA8#8)] [] } (fun t => (t.Y, t.PC, flags t)) =
      some (0x00#8, 0x0201#16, [false, false, false, false, true, false]) := by
  rfl

/-- V-LS12 (R169): TXA. -/
theorem test_V_LS12 :
    after { start with
        PC := 0x0200#16, X := 0x7F#8,
        bus := ram [(0x0200, 0x8A#8)] [] } (fun t => (t.A, t.PC, flags t)) =
      some (0x7F#8, 0x0201#16, [false, false, false, false, false, false]) := by
  rfl

/-- V-LS13 (R170): TYA. -/
theorem test_V_LS13 :
    after { start with
        PC := 0x0200#16, Y := 0xFF#8,
        bus := ram [(0x0200, 0x98#8)] [] } (fun t => (t.A, t.PC, flags t)) =
      some (0xFF#8, 0x0201#16, [true, false, false, false, false, false]) := by
  rfl

/-- V-LS14 (R171): TSX. -/
theorem test_V_LS14 :
    after { start with
        PC := 0x0200#16, SP := 0x00#8,
        bus := ram [(0x0200, 0xBA#8)] [] } (fun t => (t.PC, flags t)) =
      some (0x0201#16, [false, false, false, false, true, false]) := by
  rfl

/-- V-LS15 (R172): TXS writes no flag. -/
theorem test_V_LS15 :
    after { start with
        PC := 0x0200#16, X := 0x00#8, Z := false,
        bus := ram [(0x0200, 0x9A#8)] [] } (fun t => (t.SP, t.PC, flags t)) =
      some (0x00#8, 0x0201#16, [false, false, false, false, false, false]) := by
  rfl

/-- V-AL4 (R184): ADC binary, signed overflow negative. -/
theorem test_V_AL4 :
    after { start with
        PC := 0x0200#16, A := 0x90#8,
        bus := ram [(0x0200, 0x69#8), (0x0201, 0x90#8)] [] } (fun t => (t.A, t.PC, flags t)) =
      some (0x20#8, 0x0202#16, [false, true, false, false, false, true]) := by
  rfl

/-- V-AL5 (R184): ADC binary with carry in. -/
theorem test_V_AL5 :
    after { start with
        PC := 0x0200#16, A := 0x00#8, C := true,
        bus := ram [(0x0200, 0x69#8), (0x0201, 0x7F#8)] [] } (fun t => (t.A, t.PC, flags t)) =
      some (0x80#8, 0x0202#16, [true, true, false, false, false, false]) := by
  rfl

/-- V-AL8 (R184): ADC decimal 58+46+1. -/
theorem test_V_AL8 :
    after { start with
        PC := 0x0200#16, A := 0x58#8, D := true, C := true,
        bus := ram [(0x0200, 0x69#8), (0x0201, 0x46#8)] [] } (fun t => (t.A, t.PC, flags t)) =
      some (0x05#8, 0x0202#16, [false, true, true, false, false, true]) := by
  rfl

/-- V-AL10 (R185): SBC binary, borrow. -/
theorem test_V_AL10 :
    after { start with
        PC := 0x0200#16, A := 0x05#8, C := true,
        bus := ram [(0x0200, 0xE9#8), (0x0201, 0x06#8)] [] } (fun t => (t.A, t.PC, flags t)) =
      some (0xFF#8, 0x0202#16, [true, false, false, false, false, false]) := by
  rfl

/-- V-AL11 (R185): SBC binary, overflow. -/
theorem test_V_AL11 :
    after { start with
        PC := 0x0200#16, A := 0x50#8, C := true,
        bus := ram [(0x0200, 0xE9#8), (0x0201, 0xB0#8)] [] } (fun t => (t.A, t.PC, flags t)) =
      some (0xA0#8, 0x0202#16, [true, true, false, false, false, false]) := by
  rfl

/-- V-AL14 (R185): SBC decimal 00-01 wraps to 99. -/
theorem test_V_AL14 :
    after { start with
        PC := 0x0200#16, A := 0x00#8, D := true, C := true,
        bus := ram [(0x0200, 0xE9#8), (0x0201, 0x01#8)] [] } (fun t => (t.A, t.PC, flags t)) =
      some (0x99#8, 0x0202#16, [true, false, true, false, false, false]) := by
  rfl

/-- V-AL15 (R185): SBC decimal 40-13 with borrow in. -/
theorem test_V_AL15 :
    after { start with
        PC := 0x0200#16, A := 0x40#8, D := true, C := false,
        bus := ram [(0x0200, 0xE9#8), (0x0201, 0x13#8)] [] } (fun t => (t.A, t.PC, flags t)) =
      some (0x26#8, 0x0202#16, [false, false, true, false, false, true]) := by
  rfl

/-- V-AL16 (R186): AND to zero. -/
theorem test_V_AL16 :
    after { start with
        PC := 0x0200#16, A := 0xF0#8,
        bus := ram [(0x0200, 0x29#8), (0x0201, 0x0F#8)] [] } (fun t => (t.A, t.PC, flags t)) =
      some (0x00#8, 0x0202#16, [false, false, false, false, true, false]) := by
  rfl

/-- V-AL17 (R187): ORA zp. -/
theorem test_V_AL17 :
    after { start with
        PC := 0x0200#16, A := 0x01#8,
        bus := ram [(0x0010, 0x80#8), (0x0200, 0x05#8), (0x0201, 0x10#8)] [] } (fun t => (t.A, t.PC, flags t)) =
      some (0x81#8, 0x0202#16, [true, false, false, false, false, false]) := by
  rfl

/-- V-AL18 (R188): EOR self-cancel. -/
theorem test_V_AL18 :
    after { start with
        PC := 0x0200#16, A := 0xFF#8,
        bus := ram [(0x0200, 0x49#8), (0x0201, 0xFF#8)] [] } (fun t => (t.A, t.PC, flags t)) =
      some (0x00#8, 0x0202#16, [false, false, false, false, true, false]) := by
  rfl

/-- V-AL20 (R189): CMP less. -/
theorem test_V_AL20 :
    after { start with
        PC := 0x0200#16, A := 0x42#8,
        bus := ram [(0x0200, 0xC9#8), (0x0201, 0x43#8)] [] } (fun t => (t.PC, flags t)) =
      some (0x0202#16, [true, false, false, false, false, false]) := by
  rfl

/-- V-AL21 (R189): CMP unsigned greater with N. -/
theorem test_V_AL21 :
    after { start with
        PC := 0x0200#16, A := 0xFF#8,
        bus := ram [(0x0200, 0xC9#8), (0x0201, 0x01#8)] [] } (fun t => (t.PC, flags t)) =
      some (0x0202#16, [true, false, false, false, false, true]) := by
  rfl

/-- V-AL22 (R190): CPX. -/
theorem test_V_AL22 :
    after { start with
        PC := 0x0200#16, X := 0x05#8,
        bus := ram [(0x0200, 0xE0#8), (0x0201, 0x0A#8)] [] } (fun t => (t.PC, flags t)) =
      some (0x0202#16, [true, false, false, false, false, false]) := by
  rfl

/-- V-AL23 (R191): CPY zero vs 0xFF. -/
theorem test_V_AL23 :
    after { start with
        PC := 0x0200#16, Y := 0x00#8,
        bus := ram [(0x0200, 0xC0#8), (0x0201, 0xFF#8)] [] } (fun t => (t.PC, flags t)) =
      some (0x0202#16, [false, false, false, false, false, false]) := by
  rfl

/-- V-AL24 (R192): BIT zp copies bits 7 and 6. -/
theorem test_V_AL24 :
    after { start with
        PC := 0x0200#16, A := 0x01#8,
        bus := ram [(0x0010, 0xC0#8), (0x0200, 0x24#8), (0x0201, 0x10#8)] [] } (fun t => (t.PC, flags t)) =
      some (0x0202#16, [true, true, false, false, true, false]) := by
  rfl

/-- V-AL25 (R192): BIT # changes Z only. -/
theorem test_V_AL25 :
    after { start with
        PC := 0x0200#16, A := 0x40#8, N := false, V := false,
        bus := ram [(0x0200, 0x89#8), (0x0201, 0xC0#8)] [] } (fun t => (t.PC, flags t)) =
      some (0x0202#16, [false, false, false, false, false, false]) := by
  rfl

/-- V-RM2 (R201): ASL zp to zero. -/
theorem test_V_RM2 :
    after { start with
        PC := 0x0200#16,
        bus := ram [(0x0010, 0x80#8), (0x0200, 0x06#8), (0x0201, 0x10#8)] [] } (fun t => (t.PC,
          t.bus.read 0x0010#16, flags t)) =
      some (0x0202#16, .ok 0x00#8, [false, false, false, false, true, true]) := by
  rfl

/-- V-RM3 (R202): LSR A. -/
theorem test_V_RM3 :
    after { start with
        PC := 0x0200#16, A := 0x01#8,
        bus := ram [(0x0200, 0x4A#8)] [] } (fun t => (t.A, t.PC, flags t)) =
      some (0x00#8, 0x0201#16, [false, false, false, false, true, true]) := by
  rfl

/-- V-RM4 (R203): ROL abs through carry. -/
theorem test_V_RM4 :
    after { start with
        PC := 0x0200#16, C := true,
        bus := ram [(0x0200, 0x2E#8), (0x0202, 0x03#8), (0x0300, 0x80#8)] [] } (fun t => (t.PC,
          t.bus.read 0x0300#16, flags t)) =
      some (0x0203#16, .ok 0x01#8, [false, false, false, false, false, true]) := by
  rfl

/-- V-RM5 (R204): ROR A. -/
theorem test_V_RM5 :
    after { start with
        PC := 0x0200#16, A := 0x01#8, C := false,
        bus := ram [(0x0200, 0x6A#8)] [] } (fun t => (t.A, t.PC, flags t)) =
      some (0x00#8, 0x0201#16, [false, false, false, false, true, true]) := by
  rfl

/-- V-RM6 (R205): INC zp wraps. -/
theorem test_V_RM6 :
    after { start with
        PC := 0x0200#16,
        bus := ram [(0x0010, 0xFF#8), (0x0200, 0xE6#8), (0x0201, 0x10#8)] [] } (fun t => (t.PC,
          t.bus.read 0x0010#16, flags t)) =
      some (0x0202#16, .ok 0x00#8, [false, false, false, false, true, false]) := by
  rfl

/-- V-RM8 (R206): DEC abs,X. -/
theorem test_V_RM8 :
    after { start with
        PC := 0x0200#16, X := 0x02#8,
        bus := ram [(0x0200, 0xDE#8), (0x0202, 0x03#8)] [] } (fun t => (t.PC, t.bus.read 0x0302#16, flags t)) =
      some (0x0203#16, .ok 0xFF#8, [true, false, false, false, false, false]) := by
  rfl

/-- V-RM10 (R207): INX. -/
theorem test_V_RM10 :
    after { start with
        PC := 0x0200#16, X := 0xFF#8,
        bus := ram [(0x0200, 0xE8#8)] [] } (fun t => (t.X, t.PC, flags t)) =
      some (0x00#8, 0x0201#16, [false, false, false, false, true, false]) := by
  rfl

/-- V-RM11 (R208): INY. -/
theorem test_V_RM11 :
    after { start with
        PC := 0x0200#16, Y := 0x7F#8,
        bus := ram [(0x0200, 0xC8#8)] [] } (fun t => (t.Y, t.PC, flags t)) =
      some (0x80#8, 0x0201#16, [true, false, false, false, false, false]) := by
  rfl

/-- V-RM12 (R209): DEX. -/
theorem test_V_RM12 :
    after { start with
        PC := 0x0200#16, X := 0x00#8,
        bus := ram [(0x0200, 0xCA#8)] [] } (fun t => (t.X, t.PC, flags t)) =
      some (0xFF#8, 0x0201#16, [true, false, false, false, false, false]) := by
  rfl

/-- V-RM13 (R210): DEY. -/
theorem test_V_RM13 :
    after { start with
        PC := 0x0200#16, Y := 0x01#8,
        bus := ram [(0x0200, 0x88#8)] [] } (fun t => (t.Y, t.PC, flags t)) =
      some (0x00#8, 0x0201#16, [false, false, false, false, true, false]) := by
  rfl

/-- V-RM14 (R211): TSB abs. -/
theorem test_V_RM14 :
    after { start with
        PC := 0x0200#16, A := 0x81#8,
        bus := ram [(0x0200, 0x0C#8), (0x0202, 0x03#8), (0x0300, 0x01#8)] [] } (fun t => (t.PC,
          t.bus.read 0x0300#16, flags t)) =
      some (0x0203#16, .ok 0x81#8, [false, false, false, false, false, false]) := by
  rfl

/-- V-RM15 (R212): TRB zp. -/
theorem test_V_RM15 :
    after { start with
        PC := 0x0200#16, A := 0x0F#8,
        bus := ram [(0x0010, 0xF0#8), (0x0200, 0x14#8), (0x0201, 0x10#8)] [] } (fun t => (t.PC,
          t.bus.read 0x0010#16, flags t)) =
      some (0x0202#16, .ok 0xF0#8, [false, false, false, false, true, false]) := by
  rfl

/-- V-RM19 (R216): RMB3. -/
theorem test_V_RM19 :
    after { start with
        PC := 0x0200#16,
        bus := ram [(0x0040, 0xFF#8), (0x0200, 0x37#8), (0x0201, 0x40#8)] [] } (fun t => (t.PC,
          t.bus.read 0x0040#16, flags t)) =
      some (0x0202#16, .ok 0xF7#8, [false, false, false, false, false, false]) := by
  rfl

/-- V-RM31 (R228): SMB7. -/
theorem test_V_RM31 :
    after { start with
        PC := 0x0200#16,
        bus := ram [(0x0200, 0xF7#8), (0x0201, 0x40#8)] [] } (fun t => (t.PC, t.bus.read 0x0040#16, flags t)) =
      some (0x0202#16, .ok 0x80#8, [false, false, false, false, false, false]) := by
  rfl

/-- V-SF1 (R250): PHA. -/
theorem test_V_SF1 :
    after { start with
        PC := 0x0200#16, A := 0x42#8,
        bus := ram [(0x0200, 0x48#8)] [] } (fun t => (t.SP, t.PC, t.bus.read 0x01FF#16, flags t)) =
      some (0xFE#8, 0x0201#16, .ok 0x42#8, [false, false, false, false, false, false]) := by
  rfl

/-- V-SF2 (R251): PHP sets B and bit 5 in the image. -/
theorem test_V_SF2 :
    after { start with
        PC := 0x0200#16, N := true, I := true, Z := true, C := true,
        bus := ram [(0x0200, 0x08#8)] [] } (fun t => (t.SP, t.PC, t.bus.read 0x01FF#16, flags t)) =
      some (0xFE#8, 0x0201#16, .ok 0xB7#8, [true, false, false, true, true, true]) := by
  rfl

/-- V-SF3 (R252): PHX at SP=0x00 wraps. -/
theorem test_V_SF3 :
    after { start with
        PC := 0x0200#16, X := 0x11#8, SP := 0x00#8,
        bus := ram [(0x0200, 0xDA#8)] [] } (fun t => (t.SP, t.PC, t.bus.read 0x0100#16, flags t)) =
      some (0xFF#8, 0x0201#16, .ok 0x11#8, [false, false, false, false, false, false]) := by
  rfl

/-- V-SF4 (R253): PHY. -/
theorem test_V_SF4 :
    after { start with
        PC := 0x0200#16, Y := 0x22#8, SP := 0x80#8,
        bus := ram [(0x0200, 0x5A#8)] [] } (fun t => (t.SP, t.PC, t.bus.read 0x0180#16, flags t)) =
      some (0x7F#8, 0x0201#16, .ok 0x22#8, [false, false, false, false, false, false]) := by
  rfl

/-- V-SF5 (R254): PLA. -/
theorem test_V_SF5 :
    after { start with
        PC := 0x0200#16, SP := 0xFE#8,
        bus := ram [(0x0200, 0x68#8)] [] } (fun t => (t.SP, t.PC, flags t)) =
      some (0xFF#8, 0x0201#16, [false, false, false, false, true, false]) := by
  rfl

/-- V-SF6 (R255): PLP ignores bits 5 and 4. -/
theorem test_V_SF6 :
    after { start with
        PC := 0x0200#16, SP := 0xFE#8,
        bus := ram [(0x01FF, 0xFF#8), (0x0200, 0x28#8)] [] } (fun t => (t.SP, t.PC, flags t)) =
      some (0xFF#8, 0x0201#16, [true, true, true, true, true, true]) := by
  rfl

/-- V-SF7 (R256): PLX at SP=0xFF wraps. -/
theorem test_V_SF7 :
    after { start with
        PC := 0x0200#16,
        bus := ram [(0x0100, 0x80#8), (0x0200, 0xFA#8)] [] } (fun t => (t.X, t.SP, t.PC, flags t)) =
      some (0x80#8, 0x00#8, 0x0201#16, [true, false, false, false, false, false]) := by
  rfl

/-- V-SF8 (R257): PLY. -/
theorem test_V_SF8 :
    after { start with
        PC := 0x0200#16, SP := 0xFE#8,
        bus := ram [(0x01FF, 0x7F#8), (0x0200, 0x7A#8)] [] } (fun t => (t.Y, t.SP, t.PC, flags t)) =
      some (0x7F#8, 0xFF#8, 0x0201#16, [false, false, false, false, false, false]) := by
  rfl

/-- V-SF9 (R258): CLC. -/
theorem test_V_SF9 :
    after { start with
        PC := 0x0200#16, C := true,
        bus := ram [(0x0200, 0x18#8)] [] } (fun t => (t.PC, flags t)) =
      some (0x0201#16, [false, false, false, false, false, false]) := by
  rfl

/-- V-SF10 (R259): CLD. -/
theorem test_V_SF10 :
    after { start with
        PC := 0x0200#16, D := true,
        bus := ram [(0x0200, 0xD8#8)] [] } (fun t => (t.PC, flags t)) =
      some (0x0201#16, [false, false, false, false, false, false]) := by
  rfl

/-- V-SF11 (R260): CLI with IRQ pending enters IRQ in the same step. -/
theorem test_V_SF11 :
    after { start with
        PC := 0x0200#16, I := true, pendingIrq := true,
        bus := ram [(0x0200, 0x58#8), (0xFFFF, 0x90#8)] [] } (fun t => (t.SP, t.PC, t.pendingIrq, t.inService,
          t.bus.read 0x01FD#16, t.bus.read 0x01FE#16, t.bus.read 0x01FF#16, flags t)) =
      some (0xFC#8, 0x9000#16, false, true, .ok 0x20#8, .ok 0x01#8, .ok 0x02#8, [false, false, false, true,
          false, false]) := by
  rfl

/-- V-SF12 (R261): CLV. -/
theorem test_V_SF12 :
    after { start with
        PC := 0x0200#16, V := true,
        bus := ram [(0x0200, 0xB8#8)] [] } (fun t => (t.PC, flags t)) =
      some (0x0201#16, [false, false, false, false, false, false]) := by
  rfl

/-- V-SF13 (R262): SEC. -/
theorem test_V_SF13 :
    after { start with
        PC := 0x0200#16,
        bus := ram [(0x0200, 0x38#8)] [] } (fun t => (t.PC, flags t)) =
      some (0x0201#16, [false, false, false, false, false, true]) := by
  rfl

/-- V-SF14 (R263): SED. -/
theorem test_V_SF14 :
    after { start with
        PC := 0x0200#16,
        bus := ram [(0x0200, 0xF8#8)] [] } (fun t => (t.PC, flags t)) =
      some (0x0201#16, [false, false, true, false, false, false]) := by
  rfl

/-- V-SF15 (R264): SEI with IRQ pending keeps it pending. -/
theorem test_V_SF15 :
    after { start with
        PC := 0x0200#16, pendingIrq := true,
        bus := ram [(0x0200, 0x78#8)] [] } (fun t => (t.PC, flags t)) =
      some (0x0201#16, [false, false, false, true, false, false]) := by
  rfl

/-- V-CT2 (R271): BPL not taken. -/
theorem test_V_CT2 :
    after { start with
        PC := 0x0300#16, N := true,
        bus := ram [(0x0300, 0x10#8), (0x0301, 0x05#8)] [] } (fun t => (t.PC, flags t)) =
      some (0x0302#16, [true, false, false, false, false, false]) := by
  rfl

/-- V-CT3 (R272): BMI to itself. -/
theorem test_V_CT3 :
    after { start with
        PC := 0x0300#16, N := true,
        bus := ram [(0x0300, 0x30#8), (0x0301, 0xFE#8)] [] } (fun t => (t.PC, flags t)) =
      some (0x0300#16, [true, false, false, false, false, false]) := by
  rfl

/-- V-CT4 (R273): BVC not taken. -/
theorem test_V_CT4 :
    after { start with
        PC := 0x0300#16, V := true,
        bus := ram [(0x0300, 0x50#8), (0x0301, 0x10#8)] [] } (fun t => (t.PC, flags t)) =
      some (0x0302#16, [false, true, false, false, false, false]) := by
  rfl

/-- V-CT5 (R274): BVS -128. -/
theorem test_V_CT5 :
    after { start with
        PC := 0x0300#16, V := true,
        bus := ram [(0x0300, 0x70#8), (0x0301, 0x80#8)] [] } (fun t => (t.PC, flags t)) =
      some (0x0282#16, [false, true, false, false, false, false]) := by
  rfl

/-- V-CT6 (R275): BCC +127. -/
theorem test_V_CT6 :
    after { start with
        PC := 0x0300#16,
        bus := ram [(0x0300, 0x90#8), (0x0301, 0x7F#8)] [] } (fun t => (t.PC, flags t)) =
      some (0x0381#16, [false, false, false, false, false, false]) := by
  rfl

/-- V-CT7 (R276): BCS taken. -/
theorem test_V_CT7 :
    after { start with
        PC := 0x0300#16, C := true,
        bus := ram [(0x0300, 0xB0#8), (0x0301, 0x02#8)] [] } (fun t => (t.PC, flags t)) =
      some (0x0304#16, [false, false, false, false, false, true]) := by
  rfl

/-- V-CT8 (R277): BNE back across 0x0100/0x00FF. -/
theorem test_V_CT8 :
    after { start with
        PC := 0x0100#16,
        bus := ram [(0x0100, 0xD0#8), (0x0101, 0xFD#8)] [] } (fun t => (t.PC, flags t)) =
      some (0x00FF#16, [false, false, false, false, false, false]) := by
  rfl

/-- V-CT9 (R278): BEQ from 0x00FE. -/
theorem test_V_CT9 :
    after { start with
        PC := 0x00FE#16, Z := true,
        bus := ram [(0x00FE, 0xF0#8), (0x00FF, 0xFF#8)] [] } (fun t => (t.PC, flags t)) =
      some (0x00FF#16, [false, false, false, false, true, false]) := by
  rfl

/-- V-CT11 (R279): BRA wraps above 0xFFFF. -/
theorem test_V_CT11 :
    after { start with
        PC := 0xFFF0#16,
        bus := ram [(0xFFF0, 0x80#8), (0xFFF1, 0x10#8)] [] } (fun t => (t.PC, flags t)) =
      some (0x0002#16, [false, false, false, false, false, false]) := by
  rfl

/-- V-CT15 (R284): BBR3 taken. -/
theorem test_V_CT15 :
    after { start with
        PC := 0x0200#16,
        bus := ram [(0x0010, 0xF7#8), (0x0200, 0x3F#8), (0x0201, 0x10#8), (0x0202,
          0x04#8)] [] } (fun t => (t.PC, flags t)) =
      some (0x0207#16, [false, false, false, false, false, false]) := by
  rfl

/-- V-CT27 (R296): BBS7 not taken. -/
theorem test_V_CT27 :
    after { start with
        PC := 0x0200#16,
        bus := ram [(0x0010, 0x7F#8), (0x0200, 0xFF#8), (0x0201, 0x10#8), (0x0202,
          0x04#8)] [] } (fun t => (t.PC, flags t)) =
      some (0x0203#16, [false, false, false, false, false, false]) := by
  rfl

/-- V-CT28 (R297): JMP abs. -/
theorem test_V_CT28 :
    after { start with
        PC := 0x0200#16,
        bus := ram [(0x0200, 0x4C#8), (0x0202, 0x80#8)] [] } (fun t => (t.PC, flags t)) =
      some (0x8000#16, [false, false, false, false, false, false]) := by
  rfl

/-- V-CT29 (R297): JMP (abs,X). -/
theorem test_V_CT29 :
    after { start with
        PC := 0x0200#16, X := 0x02#8,
        bus := ram [(0x0200, 0x7C#8), (0x0202, 0x10#8), (0x1002, 0x34#8), (0x1003,
          0x12#8)] [] } (fun t => (t.PC, flags t)) =
      some (0x1234#16, [false, false, false, false, false, false]) := by
  rfl

/-- V-CT30 (R298): JSR. -/
theorem test_V_CT30 :
    after { start with
        PC := 0x0200#16,
        bus := ram [(0x0200, 0x20#8), (0x0202, 0x10#8)] [] } (fun t => (t.SP, t.PC, t.bus.read 0x01FE#16,
          t.bus.read 0x01FF#16, flags t)) =
      some (0xFD#8, 0x1000#16, .ok 0x02#8, .ok 0x02#8, [false, false, false, false, false, false]) := by
  rfl

/-- V-CT32 (R299): RTS from 0xFFFF wraps to 0x0000. -/
theorem test_V_CT32 :
    after { start with
        PC := 0x0200#16, SP := 0xFD#8,
        bus := ram [(0x01FE, 0xFF#8), (0x01FF, 0xFF#8), (0x0200, 0x60#8)] [] } (fun t => (t.SP, t.PC, flags t)) =
      some (0xFF#8, 0x0000#16, [false, false, false, false, false, false]) := by
  rfl

/-- V-CT33 (R300): RTI. -/
theorem test_V_CT33 :
    after { start with
        PC := 0x0200#16, SP := 0xFC#8, inService := true, I := true,
        bus := ram [(0x01FD, 0x20#8), (0x01FE, 0x34#8), (0x01FF, 0x12#8), (0x0200,
          0x40#8)] [] } (fun t => (t.SP, t.PC, t.inService, flags t)) =
      some (0xFF#8, 0x1234#16, false, [false, false, false, false, false, false]) := by
  rfl

/-- V-CT34 (R301): BRK. -/
theorem test_V_CT34 :
    after { start with
        PC := 0x0400#16, D := true,
        bus := ram [(0x0401, 0xEA#8), (0xFFFF, 0x90#8)] [] } (fun t => (t.SP, t.PC, t.bus.read 0x01FD#16,
          t.bus.read 0x01FE#16, t.bus.read 0x01FF#16, flags t)) =
      some (0xFC#8, 0x9000#16, .ok 0x38#8, .ok 0x02#8, .ok 0x04#8, [false, false, false, true, false,
          false]) := by
  rfl

/-- V-CT35 (R301): BRK with I=1 is still taken. -/
theorem test_V_CT35 :
    after { start with
        PC := 0x0400#16, I := true,
        bus := ram [(0xFFFF, 0x90#8)] [] } (fun t => (t.SP, t.PC, t.bus.read 0x01FD#16, t.bus.read 0x01FE#16,
          t.bus.read 0x01FF#16, flags t)) =
      some (0xFC#8, 0x9000#16, .ok 0x34#8, .ok 0x02#8, .ok 0x04#8, [false, false, false, true, false,
          false]) := by
  rfl

/-- V-SY1 (R320): NOP. -/
theorem test_V_SY1 :
    after { start with
        PC := 0x0200#16,
        bus := ram [(0x0200, 0xEA#8)] [] } (fun t => (t.PC, flags t)) =
      some (0x0201#16, [false, false, false, false, false, false]) := by
  rfl

/-- V-SY4 (R322): reserved 2-byte at 0xFFFF wraps. -/
theorem test_V_SY4 :
    after { start with
        PC := 0xFFFF#16,
        bus := ram [(0xFFFF, 0x02#8)] [] } (fun t => (t.PC, flags t)) =
      some (0x0001#16, [false, false, false, false, false, false]) := by
  rfl

/-- V-SY5 (R323): reserved 0x44 reads no data. -/
theorem test_V_SY5 :
    after { start with
        PC := 0x0200#16,
        bus := ram [(0x0200, 0x44#8), (0x0201, 0x10#8)] [0x0010#16] } (fun t => (t.PC, flags t)) =
      some (0x0202#16, [false, false, false, false, false, false]) := by
  rfl

/-- V-SY7 (R325): reserved abs reads no data. -/
theorem test_V_SY7 :
    after { start with
        PC := 0x0200#16,
        bus := ram [(0x0200, 0xDC#8), (0x0201, 0x34#8), (0x0202, 0x12#8)] [0x1234#16] } (fun t => (t.PC,
          flags t)) =
      some (0x0203#16, [false, false, false, false, false, false]) := by
  rfl

/-- V-EX1 (R342): faulting store: no effect. -/
theorem test_V_EX1 :
    step { start with
        PC := 0x0200#16, A := 0x12#8,
        bus := ram [(0x0200, 0x8D#8), (0x0202, 0x40#8)] [0x4000#16] } =
      .fault (.busFault (.hole 0) 0x4000#16) := by
  rfl

/-- V-EX3 (R341): faulting pointer byte names the pointer address. -/
theorem test_V_EX3 :
    step { start with
        PC := 0x0200#16,
        bus := ram [(0x0200, 0xB2#8), (0x0201, 0x20#8)] [0x0021#16] } =
      .fault (.busFault (.hole 0) 0x0021#16) := by
  rfl

/-- V-EX4 (R342): RMW read faults: nothing written. -/
theorem test_V_EX4 :
    step { start with
        PC := 0x0200#16,
        bus := ram [(0x0200, 0xEE#8), (0x0202, 0x50#8)] [0x5000#16] } =
      .fault (.busFault (.hole 0) 0x5000#16) := by
  rfl

/-- V-EX5 (R350): IRQ entry after NOP. -/
theorem test_V_EX5 :
    after { start with
        PC := 0x0200#16, pendingIrq := true,
        bus := ram [(0x0200, 0xEA#8), (0xFFFF, 0x90#8)] [] } (fun t => (t.SP, t.PC, t.pendingIrq, t.inService,
          t.bus.read 0x01FD#16, t.bus.read 0x01FE#16, t.bus.read 0x01FF#16, flags t)) =
      some (0xFC#8, 0x9000#16, false, true, .ok 0x20#8, .ok 0x01#8, .ok 0x02#8, [false, false, false, true,
          false, false]) := by
  rfl

/-- V-EX6 (R347): IRQ masked by I. -/
theorem test_V_EX6 :
    after { start with
        PC := 0x0200#16, I := true, pendingIrq := true,
        bus := ram [(0x0200, 0xEA#8)] [] } (fun t => (t.PC, flags t)) =
      some (0x0201#16, [false, false, false, true, false, false]) := by
  rfl

/-- V-EX7 (R361): NMI entry with I=1 (the document's example). -/
theorem test_V_EX7 :
    after { start with
        PC := 0x0300#16, I := true, pendingNmi := true,
        bus := ram [(0x0300, 0xEA#8), (0xFFFB, 0xC0#8)] [] } (fun t => (t.SP, t.PC, t.pendingNmi, t.inService,
          t.bus.read 0x01FD#16, t.bus.read 0x01FE#16, t.bus.read 0x01FF#16, flags t)) =
      some (0xFC#8, 0xC000#16, false, true, .ok 0x24#8, .ok 0x01#8, .ok 0x03#8, [false, false, false, true,
          false, false]) := by
  rfl

/-- V-EX8 (R348): NMI and IRQ both pending: NMI first. -/
theorem test_V_EX8 :
    after { start with
        PC := 0x0200#16, pendingNmi := true, pendingIrq := true,
        bus := ram [(0x0200, 0xEA#8), (0xFFFB, 0xC0#8)] [] } (fun t => (t.SP, t.PC, t.pendingNmi, t.inService,
          t.bus.read 0x01FD#16, t.bus.read 0x01FE#16, t.bus.read 0x01FF#16, flags t)) =
      some (0xFC#8, 0xC000#16, false, true, .ok 0x20#8, .ok 0x01#8, .ok 0x02#8, [false, false, false, true,
          false, false]) := by
  rfl

/-- V-EX9 (R354): NMI gated while in service. -/
theorem test_V_EX9 :
    after { start with
        PC := 0x0200#16, pendingNmi := true, inService := true,
        bus := ram [(0x0200, 0xEA#8), (0xFFFB, 0xC0#8)] [] } (fun t => (t.PC, flags t)) =
      some (0x0201#16, [false, false, false, false, false, false]) := by
  rfl

/-- V-EX10 (R354): NMI not gated with SERVICE_GATE=false. -/
theorem test_V_EX10 :
    after { start with
        PC := 0x0200#16, pendingNmi := true, inService := true,
          params := { specParams with serviceGate := false },
        bus := ram [(0x0200, 0xEA#8), (0xFFFB, 0xC0#8)] [] } (fun t => (t.SP, t.PC, t.pendingNmi,
          t.bus.read 0x01FD#16, t.bus.read 0x01FE#16, t.bus.read 0x01FF#16, flags t)) =
      some (0xFC#8, 0xC000#16, false, .ok 0x20#8, .ok 0x01#8, .ok 0x02#8, [false, false, false, true, false,
          false]) := by
  rfl

/-- V-EX12 (R342): entry push faults: the NOP and the entry are discarded. -/
theorem test_V_EX12 :
    step { start with
        PC := 0x0200#16, pendingNmi := true,
        bus := ram [(0x0200, 0xEA#8), (0xFFFB, 0xC0#8)] [0x01FF#16] } =
      .fault (.busFault (.hole 0) 0x01FF#16) := by
  rfl

/-- V-EX18 (R354): RTI from NMI handler: pending IRQ entered at end of RTI step. -/
theorem test_V_EX18 :
    after { start with
        PC := 0xC000#16, SP := 0xFC#8, inService := true, I := true, pendingIrq := true,
        bus := ram [(0x01FD, 0x20#8), (0x01FE, 0x01#8), (0x01FF, 0x03#8), (0xC000, 0x40#8), (0xFFFF,
          0x90#8)] [] } (fun t => (t.PC, t.pendingIrq, t.bus.read 0x01FD#16, t.bus.read 0x01FE#16,
          t.bus.read 0x01FF#16, flags t)) =
      some (0x9000#16, false, .ok 0x20#8, .ok 0x01#8, .ok 0x03#8, [false, false, false, true, false, false]) := by
  rfl

/-- V-EX15 (R349): BRK with NMI pending: NMI entered on top of BRK frame. -/
theorem test_V_EX15 :
    after { start with
        PC := 0x0400#16, pendingNmi := true,
        bus := ram [(0xFFFB, 0xC0#8), (0xFFFF, 0x90#8)] [] } (fun t => (t.SP, t.PC, t.pendingNmi, t.inService,
          t.bus.read 0x01FA#16, t.bus.read 0x01FB#16, t.bus.read 0x01FC#16, t.bus.read 0x01FD#16,
          t.bus.read 0x01FE#16, t.bus.read 0x01FF#16, flags t)) =
      some (0xF9#8, 0xC000#16, false, true, .ok 0x24#8, .ok 0x00#8, .ok 0x90#8, .ok 0x30#8, .ok 0x02#8,
          .ok 0x04#8, [false, false, false, true, false, false]) := by
  rfl

/-! ### The router, reset and the host's requests -/

/-- V-RT2 (R80): OTP_LEN 300, a remainder and not a mask. -/
theorem test_V_RT2 : pocket.readU8 0x0000200 = .byte 0xA5#8 := by rfl
/-- V-RT4, V-RT5, V-RT6 (R81). -/
theorem test_V_RT4_to_6 :
    [pocket.readU8 0x0200000, pocket.readU8 0x05FFFFF, pocket.readU8 0x3DFFFFF] =
      [.byte 0x3C#8, .byte 0x5A#8, .byte 0x5A#8] := by rfl
/-- V-RT7, V-RT8, V-RT9, V-RT10 (R82, R83). -/
theorem test_V_RT7_to_10 :
    [pocket.readU8 0x0600000, pocket.writeU8 0x07FFFFF 0x00#8, pocket.writeU8 0x0000000 0x12#8,
      pocket.writeU8 0x0200000 0x12#8] =
      [.unimplemented .videoRead, .unimplemented .videoWrite, .unimplemented .otpWrite,
        .unimplemented .flashWrite] := by rfl
/-- V-RT14 (R87). -/
theorem test_V_RT14 : pocket.readU8 0x4000000 = .refused := by rfl
/-- V-RT12 (R84): a flash image of the wrong length. -/
theorem test_V_RT12 : Handheld.new 1 [] [0x01#8] [] = .error (.invalidFlash 0x200000 0) := by rfl
/-- The core over the Handheld reads through cpu_to_mcu (R86): 0x0202 maps into OTP, 0x0201 into the video
region. -/
theorem test_core_reads_through_the_map :
    (AddressSpace.handheld pocket).read 0x0202#16 = .ok 0xA5#8 ∧
      (AddressSpace.handheld pocket).read 0x0201#16 = .error .videoRead := by
  exact ⟨rfl, rfl⟩

/-- V-RS1 (R380, R381), from a Stopped core with requests pending. -/
theorem test_V_RS1 (d : Draws) :
    hostReset d { start with mode := .stopped, pendingNmi := true, inService := true, D := true,
                             bus := ram [(0xFFFC, 0x34#8), (0xFFFD, 0x12#8)] [] } =
      .ok { start with A := d.A, X := d.X, Y := d.Y, SP := d.SP, N := d.N, V := d.V, Z := d.Z, C := d.C,
                       PC := 0x1234#16, D := false, I := true,
                       bus := ram [(0xFFFC, 0x34#8), (0xFFFD, 0x12#8)] [] } := by
  rfl

/-- V-RS2 (R380, D29): the high vector byte cannot be read. -/
theorem test_V_RS2 (d : Draws) :
    hostReset d { start with bus := ram [(0xFFFC, 0x34#8)] [0xFFFD#16] } =
      .fault (.busFault (.hole 0) 0xFFFD#16)
        { start with A := d.A, X := d.X, Y := d.Y, SP := d.SP, N := d.N, V := d.V, Z := d.Z, C := d.C,
                     PC := d.PC, D := false, I := true, mode := .stopped,
                     bus := ram [(0xFFFC, 0x34#8)] [0xFFFD#16] } := by
  rfl

/-- V-SY8 (R326, R352): WAI, and the hold after it. -/
theorem test_V_SY8 :
    (hostStep { start with PC := 0x0200#16, bus := ram [(0x0200, 0xCB#8)] [] }).1 = .ok ∧
      hostStep { start with PC := 0x0201#16, mode := .waiting } =
        (.hold, { start with PC := 0x0201#16, mode := .waiting }) := by
  exact ⟨rfl, rfl⟩

/-- V-EX13 (R352): the step after the request wakes the core and enters the IRQ, pushing 0x0301. -/
theorem test_V_EX13 :
    after (requestInterrupt .irq { start with PC := 0x0301#16, mode := .waiting, bus := ram [(0xFFFF, 0x90#8)] [] })
      (fun t => (t.PC, t.SP, t.inService, t.mode, t.bus.read 0x01FF#16, t.bus.read 0x01FE#16, flags t)) =
      some (0x9000#16, 0xFC#8, true, .running, .ok 0x03#8, .ok 0x01#8, [false, false, false, true, false, false]) := by
  rfl

/-- V-EX17 (R352): STP ignores an NMI. -/
theorem test_V_EX17 :
    hostStep (requestInterrupt .nmi { start with PC := 0x0301#16, mode := .stopped }) =
      (.hold, { start with PC := 0x0301#16, mode := .stopped, pendingNmi := true }) := by
  rfl

/-! ### The host's two questions, on a word of one, two and three bytes -/

theorem test_table_words :
    [decodeTableWord 8 0xEA, decodeTableWord 16 0x42A9, decodeTableWord 24 0x12346D, decodeTableWord 8 0x6D] =
      [some .nop, some (.ldaImm 0x42#8), some (.adcAbs 0x1234#16), some (.adcAbs 0x0000#16)] := by
  rfl

theorem test_with_fetch_word :
    after (State.reset.withFetchWord 16 0x42A9) (fun t => (t.A, t.PC)) = some (0x42#8, 0x0002#16) := by
  rfl

/-! ### Address spaces of other implementations (20_memory.md R60, R69), named by what their two functions answer -/

/-- A core bound to an external space. -/
def bound (contents : Nat) : State := { start with bus := .external { implementation := 1, contents := contents } }

/-- A space that drops the write (R69): the store completes and the space is as it was. -/
theorem test_external_drops_a_write (h : Config.externalWrite 1 7 0x4000#16 start.A = .ok 7) :
    exec (.staAbs 0x4000#16) (bound 7) = .next (bound 7) :=
  congrArg answer (writeMem_ok (m := .absolute 0x4000#16) (s := bound 7) rfl (AddressSpace.write_external_ok h))

/-- A mirrored space (R69): INC at 0x0800 reads and writes a cell that a load at 0x0000 then reads. -/
theorem test_external_mirrors_a_cell (h : Config.externalRead 1 7 0x0800#16 = .ok 0x41#8)
    (hw : Config.externalWrite 1 7 0x0800#16 0x42#8 = .ok 8) (hr : Config.externalRead 1 8 0x0000#16 = .ok 0x42#8) :
    exec (.incAbs 0x0800#16) (bound 7) = .next (bound 8) ∧
      exec (.ldaZp 0x00#8) (bound 8) = .next { bound 8 with A := 0x42#8 } := by
  constructor
  · exact congrArg answer (rmw_mem_ok (s := bound 7) rfl rfl h (AddressSpace.write_external_ok hw))
  · exact congrArg (fun r => answer (r >>= fun m => .ok (setNZ m { bound 8 with A := m })))
      (readSrc_mem_ok (ea_zeroPage 0x00#8 (bound 8)) hr)

/-- A space that refuses by value and by what was written before (R60, R69): the second push of a JSR is refused after
the first was accepted, and the fault names it. -/
theorem test_external_refuses_after_a_write
    (h1 : Config.externalWrite 1 7 (stackAddr start.SP) (highByte (start.PC - 1#16)) = .ok 8)
    (h2 : Config.externalWrite 1 8 (stackAddr (start.SP - 1#8)) (lowByte (start.PC - 1#16)) = .error (.hole 5)) :
    exec (.jsr 0x1234#16) (bound 7) = .fault (.busFault (.hole 5) (stackAddr (start.SP - 1#8))) := by
  show answer (callSubroutine 0x1234#16 (bound 7)) = _
  unfold callSubroutine
  rw [pushWord_error_low (w := (bound 7).PC - 1#16) (s := bound 7) (AddressSpace.write_external_ok h1)
    (AddressSpace.write_external_error h2)]
  rfl

/-! ### Witnesses: for each obligation with hypotheses, concrete values that meet them together, at a boundary -/

/-- Every byte accepts every access; PC, SP and the indexes stand at their boundaries. -/
def edge : State :=
  { start with A := 0x99#8, X := 0x01#8, Y := 0x02#8, SP := 0x00#8, PC := 0xFFFF#16 }

/-- As `edge`, with one hole at an address that a clause about a refused access names. -/
def holed (a : Word) : State := { edge with bus := ram [] [a] }

theorem witness_DecodeOfEncodeIsTheInstruction :
    (Instr.bbs7 0xFF#8 0x80#8).wellFormed = true ∧ (Instr.jmpInd 0xFFFF#16).wellFormed = true := by
  exact ⟨rfl, rfl⟩

theorem witness_EncodeOfDecodeIsTheBytes :
    decode [0x4C#8, 0xFF#8, 0x80#8, 0x00#8] = .ok (.jmpAbs 0x80FF#16, [0x00#8]) := by rfl

theorem witness_StepRunsTheDecodedInstruction :
    let s := { edge with bus := ram [(0x0000, 0x42#8), (0xFFFF, 0xA9#8)] [] }
    s.mode = .running ∧ decode [0xA9#8, 0x42#8] = .ok (.ldaImm 0x42#8, []) ∧
      ∀ (k : Nat) (b : Byte), [0xA9#8, 0x42#8][k]? = some b → readByte (s.PC + BitVec.ofNat 16 k) s = .ok b := by
  refine ⟨rfl, rfl, fun k b h => ?_⟩
  match k, h with
  | 0, h => cases h; rfl
  | 1, h => cases h; rfl

theorem witness_FetchFaultNamesTheFirstUnreadableByte :
    (holed 0xFFFF#16).mode = .running ∧
      readByte 0xFFFF#16 (holed 0xFFFF#16) = .error (.busFault (.hole 0) 0xFFFF#16) ∧
      (readByte 0xFFFF#16 (holed 0x0000#16) = .ok 0x00#8 ∧ 2 ≤ opcodeLength 0x00#8 ∧
        readByte (0xFFFF#16 + 1#16) (holed 0x0000#16) = .error (.busFault (.hole 0) 0x0000#16)) ∧
      (let s := { edge with bus := ram [(0xFFFF, 0x4C#8)] [0x0001#16] }
       readByte 0xFFFF#16 s = .ok 0x4C#8 ∧ opcodeLength 0x4C#8 = 3 ∧ readByte (0xFFFF#16 + 1#16) s = .ok 0x00#8 ∧
        readByte (0xFFFF#16 + 2#16) s = .error (.busFault (.hole 0) 0x0001#16)) := by
  exact ⟨rfl, rfl, ⟨rfl, by decide, rfl⟩, rfl, rfl, rfl, rfl⟩

/-- Its clauses on the bytes an instruction does not have, which here cannot be read: after a NOP, after the two bytes
of LDA immediate; and the three bytes of JMP. -/
theorem witness_FetchReadsOnlyTheBytesTheInstructionHas :
    (let s := { edge with bus := ram [(0xFFFF, 0xEA#8)] [0x0000#16] }
     readByte 0xFFFF#16 s = .ok 0xEA#8 ∧ opcodeLength 0xEA#8 = 1 ∧ step s = .next { s with PC := 0x0000#16 }) ∧
      (let s := { edge with bus := ram [(0xFFFF, 0xA9#8)] [0x0001#16] }
       readByte 0xFFFF#16 s = .ok 0xA9#8 ∧ opcodeLength 0xA9#8 = 2 ∧ readByte (0xFFFF#16 + 1#16) s = .ok 0x00#8) ∧
      (let s := { edge with bus := ram [(0xFFFF, 0x4C#8)] [] }
       readByte 0xFFFF#16 s = .ok 0x4C#8 ∧ readByte (0xFFFF#16 + 1#16) s = .ok 0x00#8 ∧
        readByte (0xFFFF#16 + 2#16) s = .ok 0x00#8) := by
  exact ⟨⟨rfl, rfl, rfl⟩, ⟨rfl, rfl, rfl⟩, rfl, rfl, rfl⟩

theorem witness_EveryFaultIsAnUnimplementedAccess :
    step (holed 0xFFFF#16) = .fault (.busFault (.hole 0) 0xFFFF#16) ∧ (holed 0xFFFF#16).bus.isExternal = false := by
  exact ⟨rfl, rfl⟩

theorem witness_FaultedStepHasNoEffect :
    (hostStep (holed 0xFFFF#16)).1 = .fault (.busFault (.hole 0) 0xFFFF#16) := by rfl

theorem witness_HoldsAreLiftedOnlyAsTheTableSays :
    ({ edge with mode := .stopped } : State).mode = .stopped ∧
      (let s : State := { edge with mode := .waiting }
       s.mode = .waiting ∧ s.pendingNmi = false ∧ s.pendingIrq = false) ∧
      (let s : State := { edge with mode := .waiting, pendingIrq := true }
       s.mode = .waiting ∧ (s.pendingNmi = true ∨ s.pendingIrq = true)) ∧
      edge.bus.read 0xFFFC#16 = .ok 0x00#8 ∧ edge.bus.read 0xFFFD#16 = .ok 0x00#8 := by
  exact ⟨rfl, ⟨rfl, rfl, rfl⟩, ⟨rfl, .inr rfl⟩, rfl, rfl⟩

theorem witness_WaitingAfterStepMeansNothingDue :
    step { edge with bus := ram [(0xFFFF, 0xCB#8)] [] } =
      .next { edge with PC := 0x0000#16, mode := .waiting, bus := ram [(0xFFFF, 0xCB#8)] [] } := by rfl

theorem witness_InterruptCheckEntersNmiBeforeIrq :
    (let s : State := { edge with PC := 0x0200#16, pendingNmi := true, pendingIrq := true }
     nmiDue s = true ∧ ∃ t, interruptCheck s = .ok t) ∧
      (let s : State := { edge with pendingIrq := true }
       nmiDue s = false ∧ irqDue s = true) ∧
      (let s : State := { edge with inService := true, pendingNmi := true, pendingIrq := true }
       nmiDue s = false ∧ irqDue s = false) ∧
      (let s : State := { edge with bus := ram [(0xFFFF, 0xEA#8)] [] }
       s.mode = .running ∧ fetch s = .ok (.nop, 0x0000#16) ∧
        ∃ t, exec .nop { s with PC := 0x0000#16 } = .next t ∧ t.mode ≠ .stopped) ∧
      (let s : State := { edge with bus := ram [(0xFFFF, 0xDB#8)] [] }
       fetch s = .ok (.stp, 0x0000#16) ∧ ∃ t, exec .stp { s with PC := 0x0000#16 } = .next t ∧ t.mode = .stopped) ∧
      (let s : State := { edge with bus := ram [(0xFFFF, 0x08#8)] [0x0100#16] }
       fetch s = .ok (.php, 0x0000#16) ∧
        exec .php { s with PC := 0x0000#16 } = .fault (.busFault (.hole 0) 0x0100#16)) ∧
      (let s : State := { edge with mode := .waiting, pendingIrq := true }
       s.mode = .waiting ∧ (s.pendingNmi = true ∨ s.pendingIrq = true)) := by
  exact ⟨⟨rfl, _, rfl⟩, ⟨rfl, rfl⟩, ⟨rfl, rfl⟩, ⟨rfl, rfl, _, rfl, nofun⟩, ⟨rfl, _, rfl, rfl⟩, ⟨rfl, rfl⟩, rfl,
    .inr rfl⟩

/-- The three slots wrap from 0x0100 to 0x01FF and accept the frame of an entry; its vector can be read. -/
theorem witness_InterruptEntryStacksPcAndFlagsAndTakesTheVector :
    ∃ b1 b2 b3 : AddressSpace, edge.bus.write (stackAddr edge.SP) (highByte edge.PC) = .ok b1 ∧
      b1.write (stackAddr (edge.SP - 1#8)) (lowByte edge.PC) = .ok b2 ∧
      b2.write (stackAddr (edge.SP - 2#8)) (pImage false edge) = .ok b3 ∧
      b3.read 0xFFFA#16 = .ok 0x00#8 ∧ b3.read 0xFFFB#16 = .ok 0x00#8 ∧
      b3.read 0xFFFE#16 = .ok 0x00#8 ∧ b3.read 0xFFFF#16 = .ok 0x00#8 := by
  exact ⟨_, _, _, rfl, rfl, rfl, rfl, rfl, rfl, rfl⟩

theorem witness_NmiRequestIsTakenWhateverIIs :
    let s : State := { edge with I := true, bus := ram [(0xFFFF, 0xEA#8)] [] }
    s.mode = .running ∧ s.inService = false ∧ s.bus.read s.PC = .ok 0xEA#8 ∧
      ∃ b1 b2 b3 : AddressSpace, s.bus.write (stackAddr s.SP) (highByte (s.PC + 1#16)) = .ok b1 ∧
        b1.write (stackAddr (s.SP - 1#8)) (lowByte (s.PC + 1#16)) = .ok b2 ∧
        b2.write (stackAddr (s.SP - 2#8)) (pImage false s) = .ok b3 ∧
        b3.read 0xFFFA#16 = .ok 0x00#8 ∧ b3.read 0xFFFB#16 = .ok 0x00#8 := by
  exact ⟨rfl, rfl, rfl, _, _, _, rfl, rfl, rfl, rfl, rfl⟩

theorem witness_PendingBitIsClearedOnlyByTakingIt :
    let s : State := { edge with PC := 0x0200#16, pendingNmi := true, pendingIrq := true, bus := ram [(0x0200, 0xEA#8)] [] }
    after s (fun t => (t.pendingNmi, t.pendingIrq)) = some (false, true) ∧ s.pendingNmi = true ∧
      s.pendingIrq = true := by
  exact ⟨rfl, rfl, rfl⟩

theorem witness_OnlyRtiClearsInService :
    (∃ t, exec .rti { edge with inService := true } = .next t) ∧
      ∃ t, exec (.brk 0x00#8) { edge with inService := true } = .next t := by
  exact ⟨⟨_, rfl⟩, _, rfl⟩

theorem witness_ResetLeavesTheResetState :
    (edge.bus.read 0xFFFC#16 = .ok 0x00#8 ∧ edge.bus.read 0xFFFD#16 = .ok 0x00#8) ∧
      (holed 0xFFFC#16).bus.read 0xFFFC#16 = .error (.hole 0) ∧
      (holed 0xFFFD#16).bus.read 0xFFFC#16 = .ok 0x00#8 ∧
      (holed 0xFFFD#16).bus.read 0xFFFD#16 = .error (.hole 0) := by
  exact ⟨⟨rfl, rfl⟩, rfl, rfl, rfl⟩

theorem witness_FirstLoadAfterResetGivesItsOperand :
    let m := ram [(0x8000, 0xA9#8), (0x8001, 0x42#8), (0xFFFD, 0x80#8)] []
    m.read 0xFFFC#16 = .ok 0x00#8 ∧ m.read 0xFFFD#16 = .ok 0x80#8 ∧ m.read 0x8000#16 = .ok 0xA9#8 ∧
      m.read 0x8001#16 = .ok 0x42#8 := by
  exact ⟨rfl, rfl, rfl, rfl⟩

theorem witness_StepKeepsTheInvariant :
    let s : State := { edge with bus := ram [(0x0000, 0xFF#8), (0xFFFF, 0x85#8)] [] }
    s.Inv ∧ ∃ t, step s = .next t := by
  exact ⟨(rfl : _ = true), _, rfl⟩

theorem witness_RequestsLatchAndHostOperationsKeepTheInvariant :
    edge.Inv ∧ (∃ t, hostReset Draws.zero edge = .ok t) ∧
      ∃ f t, hostReset Draws.zero (holed 0xFFFD#16) = .fault f t := by
  exact ⟨(rfl : _ = true), ⟨_, rfl⟩, _, _, rfl⟩

/-- Over the Handheld a step can answer a next state: the mapped flash byte 0xEA is a NOP. Over an external space
what a fetch reads is a free value, so the step that surely answers one is a hold. -/
theorem witness_StepNeverChangesParametersOrTheHandheld :
    (∃ t, step { edge with PC := 0x0200#16, bus := .handheld { pocket with flash := [(0, 0xEA#8)] } } = .next t) ∧
      (∃ t, step edge = .next t) ∧
      ∃ t, step { edge with mode := .stopped, bus := .external { implementation := 3, contents := 7 } } = .next t := by
  exact ⟨⟨_, rfl⟩, ⟨_, rfl⟩, _, rfl⟩

/-- Equality is a relation of the kind the statement asks for. -/
theorem witness_StepIsTheSameOverIndistinguishableAddressSpaces :
    (∀ m n : AddressSpace, m = n →
      (∀ a : Word, m.read a = n.read a) ∧
      (∀ (a : Word) (v : Byte),
        (∃ m' n' : AddressSpace, m.write a v = .ok m' ∧ n.write a v = .ok n' ∧ m' = n') ∨
        (∃ r : Reason, m.write a v = .error r ∧ n.write a v = .error r))) ∧ edge.bus = edge.bus := by
  refine ⟨?_, rfl⟩
  rintro m _ rfl
  refine ⟨fun _ => rfl, fun a v => ?_⟩
  cases h : m.write a v with
  | ok x => exact .inl ⟨x, x, rfl, rfl, rfl⟩
  | error r => exact .inr ⟨r, rfl, rfl⟩

theorem witness_InstructionsKeepWhatTheirTableDoesNotWrite :
    (∃ t, exec (.staIndY 0xFF#8) edge = .next t) ∧ ∃ t, exec .plp edge = .next t := by
  exact ⟨⟨_, rfl⟩, _, rfl⟩

/-- A write accepted at an address that can be read, and at one that cannot. -/
theorem witness_ReadAfterWriteGivesTheByteWritten :
    edge.bus.isExternal = false ∧ edge.bus.wf = true ∧ (∃ m, edge.bus.write 0xFFFF#16 0x80#8 = .ok m) ∧
      edge.bus.read 0xFFFF#16 = .ok 0x00#8 ∧
      (let m : AddressSpace := .harness
        { mem := [], holes := [{ addr := 0xFFFF#16, blocksRead := true, blocksWrite := false, tag := 3 }] }
       m.isExternal = false ∧ m.wf = true ∧ (∃ n, m.write 0xFFFF#16 0x80#8 = .ok n) ∧
        m.read 0xFFFF#16 = .error (.hole 3)) := by
  exact ⟨rfl, rfl, ⟨_, rfl⟩, rfl, rfl, rfl, ⟨_, rfl⟩, rfl⟩

theorem witness_StackPrimitivesWriteThenDecrementAndIncrementThenRead :
    (0x0100#16).toNat = 0x0100 + edge.SP.toNat ∧ (0x0101#16).toNat = 0x0100 + (edge.SP.toNat + 1) % 256 ∧
      (∃ m, edge.bus.write 0x0100#16 0x42#8 = .ok m) ∧
      (holed 0x0100#16).bus.write 0x0100#16 0x42#8 = .error (.hole 0) ∧
      edge.bus.read 0x0101#16 = .ok 0x00#8 ∧ (holed 0x0101#16).bus.read 0x0101#16 = .error (.hole 0) := by
  exact ⟨rfl, rfl, ⟨_, rfl⟩, rfl, rfl, rfl⟩

theorem witness_StoresChangeOnlyTheByteAtTheirAddress :
    (ea (.absoluteX 0xFFFF#16) edge = .ok 0x0000#16 ∧ ∃ t, exec (.staAbsX 0xFFFF#16) edge = .next t) ∧
      ea (.zeroPageX 0xFF#8) edge = .ok 0x0000#16 ∧ (∃ t, exec (.rolZpX 0xFF#8) edge = .next t) ∧
      edge.bus.isExternal = false := by
  exact ⟨⟨rfl, _, rfl⟩, rfl, ⟨_, rfl⟩, rfl⟩

/-- BRK at SP 0x00: its slots are 0x0100, 0x01FF and 0x01FE, and 0x0101 is none of them. -/
theorem witness_StackWritersChangeOnlyTheirSlots :
    (∃ t, exec (.brk 0x00#8) edge = .next t) ∧ (∃ t, exec (.jsr 0x1234#16) edge = .next t) ∧
      (∃ t, exec .php edge = .next t) ∧ edge.bus.isExternal = false ∧
      ∀ k ∈ [0#8, 1#8, 2#8], 0x0101#16 ≠ stackAddr (edge.SP - k) := by
  exact ⟨⟨_, rfl⟩, ⟨_, rfl⟩, ⟨_, rfl⟩, rfl, by decide⟩

/-- The zero-page pointer at 0xFF wraps to 0x00; the absolute pointer at 0xFFFF wraps to 0x0000. -/
theorem witness_IndirectModesReadTheirPointer :
    ((0x00FF#16).toNat = (0xFF#8 : Byte).toNat ∧ (0x0000#16).toNat = ((0xFF#8 : Byte).toNat + 1) % 256 ∧
      edge.bus.read 0x00FF#16 = .ok 0x00#8 ∧ edge.bus.read 0x0000#16 = .ok 0x00#8) ∧
      ((0xFFFF#16).toNat = (0xFFFF#16 : Word).toNat ∧ (0x0000#16).toNat = ((0xFFFF#16 : Word).toNat + 1) % 65536 ∧
        edge.bus.read 0xFFFF#16 = .ok 0x00#8) ∧
      (holed 0x00FF#16).bus.read 0x00FF#16 = .error (.hole 0) ∧
      (holed 0x0000#16).bus.read 0x00FF#16 = .ok 0x00#8 ∧
      (holed 0x0000#16).bus.read 0x0000#16 = .error (.hole 0) := by
  exact ⟨⟨rfl, rfl, rfl, rfl⟩, ⟨rfl, rfl, rfl⟩, rfl, rfl, rfl⟩

/-- The hypotheses of ReadForms, for LoadsSetTheirRegisterAndNZ, LogicCombinesWithA, ComparesSetCarryZeroNegative and
BitTestsAgainstA: an operand that can be read, one that cannot, and a pointer that cannot. -/
theorem witness_ReadForms :
    (ea (.indirectY 0xFF#8) edge = .ok 0x0002#16 ∧ edge.bus.read 0x0002#16 = .ok 0x00#8) ∧
      (ea (.absoluteX 0xFFFF#16) (holed 0x0000#16) = .ok 0x0000#16 ∧
        (holed 0x0000#16).bus.read 0x0000#16 = .error (.hole 0)) ∧
      ea (.indirectY 0xFF#8) (holed 0x0000#16) = .error (.busFault (.hole 0) 0x0000#16) := by
  exact ⟨⟨rfl, rfl⟩, ⟨rfl, rfl⟩, rfl⟩

theorem witness_StoresWriteTheirRegister :
    (ea (.indirectX 0xFE#8) edge = .ok 0x0000#16 ∧ ∃ b, edge.bus.write 0x0000#16 edge.A = .ok b) ∧
      (ea (.absolute 0xFFFF#16) (holed 0xFFFF#16) = .ok 0xFFFF#16 ∧
        (holed 0xFFFF#16).bus.write 0xFFFF#16 edge.A = .error (.hole 0)) ∧
      ea (.indirectX 0xFE#8) (holed 0x00FF#16) = .error (.busFault (.hole 0) 0x00FF#16) := by
  exact ⟨⟨rfl, _, rfl⟩, ⟨rfl, rfl⟩, rfl⟩

/-- For AdcBinaryAddsWithCarry and SbcBinarySubtractsWithBorrow. -/
theorem witness_BinaryArithmetic :
    edge.D = false ∧ (ea (.zeroPageX 0xFF#8) edge = .ok 0x0000#16 ∧ edge.bus.read 0x0000#16 = .ok 0x00#8) ∧
      (holed 0x0000#16).D = false ∧ ea (.zeroPageX 0xFF#8) (holed 0x0000#16) = .ok 0x0000#16 ∧
      (holed 0x0000#16).bus.read 0x0000#16 = .error (.hole 0) := by
  exact ⟨rfl, ⟨rfl, rfl⟩, rfl, rfl, rfl⟩

/-- For AdcDecimalIsBcdAddition and SbcDecimalIsBcdSubtraction: BCD operands 99 and 99, and an operand 0x9A. -/
theorem witness_DecimalArithmetic :
    let s : State := { edge with D := true, bus := ram [(0x0000, 0x99#8), (0xFFFF, 0x9A#8)] [] }
    s.D = true ∧ (ea (.zeroPageX 0xFF#8) s = .ok 0x0000#16 ∧ s.bus.read 0x0000#16 = .ok 0x99#8) ∧
      (isBcd s.A = true ∧ isBcd 0x99#8 = true) ∧
      (ea (.absolute 0xFFFF#16) s = .ok 0xFFFF#16 ∧ s.bus.read 0xFFFF#16 = .ok 0x9A#8) ∧
      ¬(isBcd s.A = true ∧ isBcd 0x9A#8 = true) := by
  exact ⟨rfl, ⟨rfl, rfl⟩, ⟨rfl, rfl⟩, ⟨rfl, rfl⟩, by decide⟩

/-- The four hypotheses of RmwForms, for ShiftsAndRotatesMoveOneBit, IncrementsAndDecrementsWrap and
BitsOfMemoryAreSetAndReset: all accesses accepted, an unreadable byte, and a byte that refuses the write. -/
theorem witness_RmwForms :
    (ea (.absoluteX 0xFFFF#16) edge = .ok 0x0000#16 ∧ edge.bus.read 0x0000#16 = .ok 0x00#8 ∧
      ∃ b, edge.bus.write 0x0000#16 0xFF#8 = .ok b) ∧
      ((holed 0x0000#16).bus.read 0x0000#16 = .error (.hole 0)) ∧
      (let m : AddressSpace := .harness
        { mem := [], holes := [{ addr := 0x0000#16, blocksRead := false, blocksWrite := true, tag := 3 }] }
       m.read 0x0000#16 = .ok 0x00#8 ∧ m.write 0x0000#16 0xFF#8 = .error (.hole 3)) ∧
      (0x00FF#16).toNat = (0xFF#8 : Byte).toNat := by
  exact ⟨⟨rfl, rfl, _, rfl⟩, rfl, ⟨rfl, rfl⟩, rfl⟩

theorem witness_PushesStoreTheirRegister :
    (0x0100#16).toNat = 0x0100 + edge.SP.toNat ∧ (∃ b, edge.bus.write 0x0100#16 (pImage true edge) = .ok b) ∧
      (holed 0x0100#16).bus.write 0x0100#16 edge.A = .error (.hole 0) := by
  exact ⟨rfl, ⟨_, rfl⟩, rfl⟩

theorem witness_PullsLoadTheirRegister :
    let s : State := { edge with SP := 0xFF#8 }
    (0x0100#16).toNat = 0x0100 + (s.SP.toNat + 1) % 256 ∧ s.bus.read 0x0100#16 = .ok 0x00#8 ∧
      (holed 0x0100#16).bus.read 0x0100#16 = .error (.hole 0) := by
  exact ⟨rfl, rfl, rfl⟩

theorem witness_BitBranchesTestOneZeroPageBit :
    (0x00FF#16).toNat = (0xFF#8 : Byte).toNat ∧ edge.bus.read 0x00FF#16 = .ok 0x00#8 ∧
      (holed 0x00FF#16).bus.read 0x00FF#16 = .error (.hole 0) := by
  exact ⟨rfl, rfl, rfl⟩

theorem witness_JumpsSetPcToTheirAddress :
    read16 0xFFFF#16 edge = .ok 0x0000#16 ∧ read16 (0xFFFF#16 + zext16 edge.X) edge = .ok 0x0000#16 ∧
      read16 0xFFFF#16 (holed 0x0000#16) = .error (.busFault (.hole 0) 0x0000#16) ∧
      read16 (0xFFFF#16 + zext16 edge.X) (holed 0x0000#16) = .error (.busFault (.hole 0) 0x0000#16) := by
  exact ⟨rfl, rfl, rfl, rfl⟩

/-- JSR whose `next` is 0x0000, so that the address it stacks is 0xFFFF, at SP 0x00. -/
theorem witness_JsrStacksNextMinusOne :
    let s : State := { edge with PC := 0x0000#16 }
    (0xFFFF#16).toNat = (s.PC.toNat + 65535) % 65536 ∧
      (∃ b1 b2, s.bus.write (stackAddr s.SP) 0xFF#8 = .ok b1 ∧ b1.write (stackAddr (s.SP - 1#8)) 0xFF#8 = .ok b2) ∧
      (holed 0x0100#16).bus.write (stackAddr s.SP) 0xFF#8 = .error (.hole 0) ∧
      (∃ b1, (holed 0x01FF#16).bus.write (stackAddr s.SP) 0xFF#8 = .ok b1 ∧
        b1.write (stackAddr (s.SP - 1#8)) 0xFF#8 = .error (.hole 0)) := by
  exact ⟨rfl, ⟨_, _, rfl, rfl⟩, rfl, _, rfl, rfl⟩

/-- RTS and RTI at SP 0xFF and 0xFE, whose slots wrap to 0x0100 and above. -/
theorem witness_RtsReturnsToThePulledAddressPlusOne :
    let sp : Byte := 0xFF#8
    (edge.bus.read (stackAddr (sp + 1#8)) = .ok 0x00#8 ∧ edge.bus.read (stackAddr (sp + 2#8)) = .ok 0x00#8) ∧
      (holed 0x0100#16).bus.read (stackAddr (sp + 1#8)) = .error (.hole 0) ∧
      ((holed 0x0101#16).bus.read (stackAddr (sp + 1#8)) = .ok 0x00#8 ∧
        (holed 0x0101#16).bus.read (stackAddr (sp + 2#8)) = .error (.hole 0)) := by
  exact ⟨⟨rfl, rfl⟩, rfl, rfl, rfl⟩

theorem witness_RtiRestoresFlagsAndPcAndEndsService :
    let sp : Byte := 0xFE#8
    (edge.bus.read (stackAddr (sp + 1#8)) = .ok 0x00#8 ∧ edge.bus.read (stackAddr (sp + 2#8)) = .ok 0x00#8 ∧
      edge.bus.read (stackAddr (sp + 3#8)) = .ok 0x00#8) ∧
      (holed 0x01FF#16).bus.read (stackAddr (sp + 1#8)) = .error (.hole 0) ∧
      (holed 0x0100#16).bus.read (stackAddr (sp + 2#8)) = .error (.hole 0) ∧
      (holed 0x0101#16).bus.read (stackAddr (sp + 3#8)) = .error (.hole 0) := by
  exact ⟨⟨rfl, rfl, rfl⟩, rfl, rfl, rfl⟩

theorem witness_BrkStacksItsFrameAndTakesTheIrqVector :
    (∃ b1 b2 b3, edge.bus.write (stackAddr edge.SP) (highByte edge.PC) = .ok b1 ∧
      b1.write (stackAddr (edge.SP - 1#8)) (lowByte edge.PC) = .ok b2 ∧
      b2.write (stackAddr (edge.SP - 2#8)) (pImage true edge) = .ok b3 ∧
      b3.read 0xFFFE#16 = .ok 0x00#8 ∧ b3.read 0xFFFF#16 = .ok 0x00#8) ∧
      (∃ b1 b2 b3, (holed 0xFFFE#16).bus.write (stackAddr edge.SP) (highByte edge.PC) = .ok b1 ∧
        b1.write (stackAddr (edge.SP - 1#8)) (lowByte edge.PC) = .ok b2 ∧
        b2.write (stackAddr (edge.SP - 2#8)) (pImage true edge) = .ok b3 ∧
        b3.read 0xFFFE#16 = .error (.hole 0)) ∧
      (∃ b1 b2 b3, (holed 0xFFFF#16).bus.write (stackAddr edge.SP) (highByte edge.PC) = .ok b1 ∧
        b1.write (stackAddr (edge.SP - 1#8)) (lowByte edge.PC) = .ok b2 ∧
        b2.write (stackAddr (edge.SP - 2#8)) (pImage true edge) = .ok b3 ∧
        b3.read 0xFFFE#16 = .ok 0x00#8 ∧ b3.read 0xFFFF#16 = .error (.hole 0)) ∧
      (holed 0x0100#16).bus.write (stackAddr edge.SP) (highByte edge.PC) = .error (.hole 0) ∧
      (∃ b1, (holed 0x01FF#16).bus.write (stackAddr edge.SP) (highByte edge.PC) = .ok b1 ∧
        b1.write (stackAddr (edge.SP - 1#8)) (lowByte edge.PC) = .error (.hole 0)) ∧
      ∃ b1 b2, (holed 0x01FE#16).bus.write (stackAddr edge.SP) (highByte edge.PC) = .ok b1 ∧
        b1.write (stackAddr (edge.SP - 1#8)) (lowByte edge.PC) = .ok b2 ∧
        b2.write (stackAddr (edge.SP - 2#8)) (pImage true edge) = .error (.hole 0) := by
  exact ⟨⟨_, _, _, rfl, rfl, rfl, rfl, rfl⟩, ⟨_, _, _, rfl, rfl, rfl, rfl⟩, ⟨_, _, _, rfl, rfl, rfl, rfl, rfl⟩, rfl,
    ⟨_, rfl, rfl⟩, _, _, rfl, rfl, rfl⟩

/-- The selectors 3, 0, 31 and one that is none of them, at the last offset. -/
theorem witness_RouterDecodesTheSelector :
    3 < 32 ∧ 0 < 32 ∧ 31 < 32 ∧ 30 < 32 ∧ 0x1FFFFF < 2 ^ 21 ∧ (30 ≠ 3 ∧ 30 ≠ 0 ∧ 30 ≠ 31) ∧
      2 ^ 26 ≤ 0x4000000 := by
  decide

/-- Images of the right lengths, and of wrong ones. -/
theorem witness_ConstructionChecksLengthsAndImagesReadBack :
    ([0x01#8] : List Byte).length = 1 ∧ (List.replicate 2097152 (0x00#8 : Byte)).length = 2097152 ∧
      ([0x01#8] : List Byte).length ≠ 2 ∧ ([] : List Byte).length ≠ 2097152 := by
  exact ⟨rfl, List.length_replicate, by decide, by decide⟩

theorem witness_StoringOnTheHandheldFaults :
    ({ edge with bus := .handheld pocket } : State).bus = .handheld pocket ∧
      (writesOf (.brk 0x00#8)).mem = true ∧ (writesOf (.incZp 0xFF#8)).mem = true := by
  exact ⟨rfl, rfl, rfl⟩

theorem witness_RtsUndoesJsr :
    edge.Inv ∧ edge.bus.isExternal = false ∧
      ∃ t, exec (.jsr 0x1234#16) edge = .next t ∧ t.bus.read (stackAddr edge.SP) = .ok 0xFF#8 ∧
        t.bus.read (stackAddr (edge.SP - 1#8)) = .ok 0xFE#8 := by
  exact ⟨(rfl : _ = true), rfl, _, rfl, rfl, rfl⟩

theorem witness_RtiUndoesBrkAndInterruptEntry :
    edge.Inv ∧ edge.bus.isExternal = false ∧ edge.mode = .running ∧
      (∃ t, exec (.brk 0x00#8) edge = .next t ∧ t.bus.read (stackAddr edge.SP) = .ok 0xFF#8 ∧
        t.bus.read (stackAddr (edge.SP - 1#8)) = .ok 0xFF#8 ∧
        t.bus.read (stackAddr (edge.SP - 2#8)) = .ok (pImage true edge)) ∧
      (∃ t, enterInterrupt .nmi edge = .ok t ∧ t.bus.read (stackAddr edge.SP) = .ok 0xFF#8 ∧
        t.bus.read (stackAddr (edge.SP - 1#8)) = .ok 0xFF#8 ∧
        t.bus.read (stackAddr (edge.SP - 2#8)) = .ok (pImage false edge)) ∧
      ∃ t, enterInterrupt .irq edge = .ok t ∧ t.bus.read (stackAddr edge.SP) = .ok 0xFF#8 ∧
        t.bus.read (stackAddr (edge.SP - 1#8)) = .ok 0xFF#8 ∧
        t.bus.read (stackAddr (edge.SP - 2#8)) = .ok (pImage false edge) := by
  exact ⟨(rfl : _ = true), rfl, rfl, ⟨_, rfl, rfl, rfl, rfl⟩, ⟨_, rfl, rfl, rfl, rfl⟩, _, rfl, rfl, rfl, rfl⟩

end Sys2Proof.Tests
end

section
/-! The family 10_state.md: the stack primitives (R35) and the P image (R37 to R39). -/

namespace Sys2Proof.Machine

/-! ### The stack pointer as a number -/

theorem sub_one_eq_ofNat (b : Byte) : b - 1#8 = BitVec.ofNat 8 (b.toNat + 255) := by
  apply BitVec.eq_of_toNat_eq
  simp only [BitVec.toNat_sub, BitVec.toNat_ofNat]
  omega

theorem add_one_eq_ofNat (b : Byte) : b + 1#8 = BitVec.ofNat 8 (b.toNat + 1) := by
  apply BitVec.eq_of_toNat_eq
  simp only [BitVec.toNat_add, BitVec.toNat_ofNat, Nat.reducePow, Nat.reduceMod]

/-- The slot a pull reads, by the number the statements give: one above SP, in the stack page. -/
theorem eq_stackAddr_add_one {a : Word} {sp : Byte} (h : a.toNat = 256 + (sp.toNat + 1) % 256) :
    a = stackAddr (sp + 1#8) :=
  eq_stackAddr (by rw [h, BitVec.toNat_add]; rfl)

/-- Settles O26: each access goes to the slot SP names, so the push and the pull do what the bus answers there,
and the SP they leave is the number of the statement. -/
theorem stackPrimitivesWriteThenDecrementAndIncrementThenRead :
    Obligations.StackPrimitivesWriteThenDecrementAndIncrementThenRead := by
  intro s v a b ha hb
  obtain rfl : a = stackAddr s.SP := eq_stackAddr ha
  obtain rfl : b = stackAddr (s.SP + 1#8) := eq_stackAddr_add_one hb
  refine ⟨fun m hm => ?_, fun r => push_error, fun c hc => ?_, fun r => pull_error⟩
  · rw [push_ok hm, sub_one_eq_ofNat]
  · rw [pull_ok hc, add_one_eq_ofNat]

/-! ### The P image bit by bit -/

@[simp] theorem getElem_bitAt (n : Nat) (b : Bool) (k : Nat) (hk : k < 8) :
    (bitAt n b)[k] = (decide (n = k) && b) := by
  cases b with
  | false => simp [bitAt]
  | true => simp [bitAt, ← BitVec.twoPow_eq, eq_comm]

/-- Settles O46: each bit of the image is the one term of its disjunction that `getElem_bitAt` does not make false,
and loading is stated field by field, as the definition is. -/
theorem pImageBitsAreTheFlags : Obligations.PImageBitsAreTheFlags := by
  refine ⟨fun s b => ?_, fun s p => rfl⟩
  simp [pImage]

end Sys2Proof.Machine
end

section
/-! The family 30_encoding.md: the opcode byte fixes the instruction and the mode, the bytes after it only the
operand (R102, R104). -/

namespace Sys2Proof

/-- The instruction a format makes from the two bytes after the opcode; it looks only at the bytes it takes. -/
def Format.instr (op1 op2 : Byte) : Format → Instr
  | .f1 i => i
  | .f2 make => make op1
  | .f3 make => make op1 op2

/-- With enough bytes the decoder answers, and it consumes what LENGTH of the opcode says (R107). -/
theorem decode_eq_instr (op op1 op2 : Byte) (rest : List Byte) :
    decode (op :: op1 :: op2 :: rest) =
      .ok ((decodeOpcode op).instr op1 op2, (op1 :: op2 :: rest).drop (opcodeLength op - 1)) := by
  cases hf : decodeOpcode op with
  | f1 i => rw [decode_f1 hf]; simp [Format.instr, opcodeLength, hf]
  | f2 make => rw [decode_f2 hf]; simp [Format.instr, opcodeLength, hf]
  | f3 make => rw [decode_f3 hf]; simp [Format.instr, opcodeLength, hf]

theorem encode_instr (op op1 op2 : Byte) :
    encode ((decodeOpcode op).instr op1 op2) = op :: [op1, op2].take (opcodeLength op - 1) := by
  have h := decodeOpcode_encodes op
  unfold opcodeLength
  cases hf : decodeOpcode op with rw [hf] at h
  | f1 i => exact h.1
  | f2 make => exact (h op1).1
  | f3 make => exact (h op1 op2).1

theorem instrLength_instr (op op1 op2 : Byte) :
    instrLength ((decodeOpcode op).instr op1 op2) = opcodeLength op := by
  have h := decodeOpcode_encodes op
  unfold opcodeLength
  cases hf : decodeOpcode op with rw [hf] at h
  | f1 i => exact h.2
  | f2 make => exact (h op1).2
  | f3 make => exact (h op1 op2).2

/-- The mode of an opcode: the one its entry of the opcode table has when the operand bytes are zero. -/
def opcodeMode (op : Byte) : AddrMode := addrMode ((decodeOpcode op).instr 0#8 0#8)

/-- The operand bytes do not choose the mode: `addrMode` looks at the constructor, and each of the 256 entries of the
opcode table applies one constructor to its operand bytes. -/
theorem addrMode_instr (op op1 op2 : Byte) : addrMode ((decodeOpcode op).instr op1 op2) = opcodeMode op := by
  have all : ∀ n, n < 256 →
      addrMode ((decodeOpcode (BitVec.ofNat 8 n)).instr op1 op2) = opcodeMode (BitVec.ofNat 8 n) := by
    intro n hn
    interval_cases n <;> rfl
  simpa using all op.toNat op.isLt

/-- The operand bytes of an opcode's mode are those LENGTH of the opcode counts (R107). -/
theorem operandBytes_opcodeMode (op : Byte) : operandBytes (opcodeMode op) = opcodeLength op - 1 := by
  rw [← instrLength_instr op 0#8 0#8, instrLength, opcodeMode, Nat.add_sub_cancel_left]

/-- Settles O4: the mode is `opcodeMode op` and the instruction the one the opcode's format makes of the bytes that
follow. -/
theorem everyOpcodeDecodesToOneInstructionAndMode : Obligations.EveryOpcodeDecodesToOneInstructionAndMode := by
  intro op
  refine ⟨opcodeMode op, fun op1 op2 rest => ⟨(decodeOpcode op).instr op1 op2, ?_, addrMode_instr op op1 op2, ?_,
    instrLength_instr op op1 op2⟩⟩
  · rw [operandBytes_opcodeMode, decode_eq_instr]
  · rw [encode_instr, List.head?_cons]

end Sys2Proof
end

section
/-! The family 42_alu.md: the binary adder in numbers (R180). -/

namespace Sys2Proof.Machine

theorem addBin_carry (a m : Byte) (c : Bool) :
    (addBin a m c).carry = decide (256 ≤ a.toNat + m.toNat + carryNat c) := rfl

/-- `signed8` of R13: a byte of 128 or more stands for its number less 256. -/
theorem toInt_eq_ite_128 (b : Byte) :
    b.toInt = if 128 ≤ b.toNat then (b.toNat : Int) - 256 else b.toNat := by
  simp [BitVec.toInt_eq_msb_cond, msb_eq_decide_128]

/-- The overflow in numbers: neither operand lies on the result's side of 128. -/
theorem addBin_overflow_iff_sides_of_128 (a m : Byte) (c : Bool) :
    (addBin a m c).overflow = true ↔
      ¬ (128 ≤ a.toNat ↔ 128 ≤ (a.toNat + m.toNat + carryNat c) % 256) ∧
      ¬ (128 ≤ m.toNat ↔ 128 ≤ (a.toNat + m.toNat + carryNat c) % 256) := by
  rw [addBin_overflow_eq, Bool.and_eq_true, Bool.xor_iff_ne, Bool.xor_iff_ne]
  simp only [msb_eq_decide_128, addBin_result_toNat, ne_eq, decide_eq_decide]

/-- The overflow is set exactly when the signed sum is outside -128 to 127. Two negative operands give a result of
the other sign when their sum falls below -128, two nonnegative ones when it passes 127; operands of different signs
have a sum in range, and one of them has the result's sign. -/
theorem addBin_overflow_iff_signed_sum (a m : Byte) (c : Bool) :
    (addBin a m c).overflow = true ↔
      a.toInt + m.toInt + carryNat c < -128 ∨ 127 < a.toInt + m.toInt + carryNat c := by
  rw [addBin_overflow_iff_sides_of_128, toInt_eq_ite_128 a, toInt_eq_ite_128 m]
  have hc : carryNat c ≤ 1 := carryNat_le_one c
  have ha : a.toNat < 256 := a.isLt
  have hm : m.toNat < 256 := m.isLt
  by_cases aNeg : 128 ≤ a.toNat <;> by_cases mNeg : 128 ≤ m.toNat <;>
    simp only [aNeg, mNeg, true_iff, false_iff, not_not, if_true, if_false] <;> omega

/-- Settles O34: result, carry and overflow are the adder's own lemmas, with the carry in read as a number. -/
theorem binaryAddSumsWithSignedOverflow : Obligations.BinaryAddSumsWithSignedOverflow := by
  intro a m c
  rw [← carryNat_eq_toNat]
  refine ⟨addBin_result_toNat a m c, ?_, addBin_overflow_iff_signed_sum a m c⟩
  rw [addBin_carry, decide_eq_true_iff]

end Sys2Proof.Machine
end

section
/-! The family 60_exceptions.md: when an interrupt is due (R347), which one the check enters (R348) and where a step
runs the check (R349). -/

namespace Sys2Proof.Machine

/-! ### When an interrupt is due -/

theorem not_gated_iff {s : State} :
    (!gated s) = true ↔ ¬(s.params.serviceGate = true ∧ s.inService = true) := by
  rw [gated, Bool.not_eq_true', ← Bool.not_eq_true, Bool.and_eq_true]

theorem nmiDue_iff {s : State} :
    nmiDue s = true ↔ s.pendingNmi = true ∧ ¬(s.params.serviceGate = true ∧ s.inService = true) := by
  rw [nmiDue, Bool.and_eq_true, not_gated_iff]

theorem irqDue_iff {s : State} :
    irqDue s = true ↔
      s.pendingIrq = true ∧ s.I = false ∧ ¬(s.params.serviceGate = true ∧ s.inService = true) := by
  rw [irqDue, Bool.and_eq_true, Bool.and_eq_true, not_gated_iff, Bool.not_eq_true', and_assoc]

/-! ### What the check does, case by case -/

theorem interruptCheck_of_nmiDue {s : State} (h : nmiDue s = true) :
    interruptCheck s = enterInterrupt .nmi s := by
  rw [interruptCheck, if_pos h]

theorem interruptCheck_of_irqDue {s : State} (hn : nmiDue s = false) (h : irqDue s = true) :
    interruptCheck s = enterInterrupt .irq s := by
  rw [interruptCheck, if_neg (Bool.eq_false_iff.1 hn), if_pos h]

theorem interruptCheck_of_nothing_due {s : State} (hn : nmiDue s = false) (hi : irqDue s = false) :
    interruptCheck s = .ok s := by
  rw [interruptCheck, if_neg (Bool.eq_false_iff.1 hn), if_neg (Bool.eq_false_iff.1 hi)]

theorem enterVector_pendingIrq {vector : Word} {brk : Bool} {s t : State} (h : enterVector vector brk s = .ok t) :
    t.pendingIrq = s.pendingIrq := by
  obtain ⟨b1, b2, b3, lo, hi, -, -, -, -, -, rfl⟩ := enterVector_eq_ok.1 h
  rfl

/-- An NMI entry clears its own request only (R350). -/
theorem enterInterrupt_nmi_pendingIrq {s t : State} (h : enterInterrupt .nmi s = .ok t) :
    t.pendingIrq = s.pendingIrq := by
  obtain ⟨u, hu, rfl⟩ := enterInterrupt_eq_ok.1 h
  simpa only [clearPending_nmi_pendingIrq] using enterVector_pendingIrq hu

/-! ### Where a step runs the check -/

theorem finishStep_next_of_not_stopped {t : State} (h : t.mode ≠ .stopped) :
    finishStep (.next t) = answer (interruptCheck t) := by
  rw [finishStep, endOfStep_eq, if_neg h]

theorem finishStep_next_of_stopped {t : State} (h : t.mode = .stopped) : finishStep (.next t) = .next t := by
  rw [finishStep, endOfStep_eq, if_pos h, answer_ok]

/-- A Running step whose fetch answers is the instruction, on the state past its bytes, and what follows it. -/
theorem step_of_fetch {s : State} {i : Instr} {next : Word} (hm : s.mode = .running)
    (hf : fetch s = .ok (i, next)) : step s = finishStep (exec i { s with PC := next }) := by
  rw [step_running hm, hf]

/-- A pending request wakes a Waiting core, and the step is the check alone (R352). -/
theorem step_waiting_of_pending {s : State} (hm : s.mode = .waiting)
    (hp : s.pendingNmi = true ∨ s.pendingIrq = true) :
    step s = answer (interruptCheck { s with mode := .running }) := by
  have hw : wakes s = true := by rwa [wakes, Bool.or_eq_true]
  simp only [step, hm, hw, if_true, wake]

/-- Settles O12: the check looks at the NMI first, and a step runs it in two places, after an instruction that left
the core not stopped (`finishStep`) and on waking. -/
theorem interruptCheckEntersNmiBeforeIrq : Obligations.InterruptCheckEntersNmiBeforeIrq := by
  intro s
  refine ⟨nmiDue_iff, irqDue_iff, fun hn => ⟨interruptCheck_of_nmiDue hn, fun t h => ?_⟩,
    interruptCheck_of_irqDue, interruptCheck_of_nothing_due, fun i next hm hf => ?_, step_waiting_of_pending⟩
  · rw [interruptCheck_of_nmiDue hn] at h
    exact enterInterrupt_nmi_pendingIrq h
  · rw [step_of_fetch hm hf]
    refine ⟨fun t he hs => ?_, fun t he hs => ?_, fun f he => ?_⟩
    · rw [he, finishStep_next_of_not_stopped hs]
    · rw [he, finishStep_next_of_stopped hs]
    · rw [he, finishStep]

end Sys2Proof.Machine
end

section
/-! The family 70_reset_and_hazards.md: what a reset leaves (R380, R381), and the first step after it (R382). -/

namespace Sys2Proof.Machine

/-! ### Reset: the assignments, and the vector read that can fail -/

theorem hostReset_of_vector {d : Draws} {s : State} {pc : Word} (h : read16 vecReset (resetRegisters d s) = .ok pc) :
    hostReset d s = .ok { resetRegisters d s with PC := pc } := by
  simp only [hostReset, h]

theorem hostReset_of_vector_fault {d : Draws} {s : State} {f : Fault}
    (h : read16 vecReset (resetRegisters d s) = .error f) :
    hostReset d s = .fault f { resetRegisters d s with PC := d.PC, mode := .stopped } := by
  simp only [hostReset, h]

/-- The vector is read through the address space the reset found. -/
theorem hostReset_ok {d : Draws} {s : State} {lo hi : Byte} (hlo : s.bus.read 0xFFFC#16 = .ok lo)
    (hhi : s.bus.read 0xFFFD#16 = .ok hi) :
    hostReset d s = .ok { resetRegisters d s with PC := concat16 hi lo } :=
  hostReset_of_vector (read16_ok hlo hhi)

/-- Settles O17: the whole states are `resetRegisters` with PC, and on a failure mode, set after it; the failing byte
is the one `read16` meets first. -/
theorem resetLeavesTheResetState : Obligations.ResetLeavesTheResetState := by
  intro d s
  refine ⟨fun lo hi hlo hhi => hostReset_ok hlo hhi, ?_⟩
  rintro r a (⟨hlo, rfl⟩ | ⟨⟨lo, hlo⟩, hhi, rfl⟩)
  · exact hostReset_of_vector_fault (read16_error_low hlo)
  · exact hostReset_of_vector_fault (read16_error_high hlo hhi)

/-! ### The first step after a reset -/

theorem interruptCheck_of_not_pending {s : State} (hn : s.pendingNmi = false) (hi : s.pendingIrq = false) :
    interruptCheck s = .ok s :=
  interruptCheck_of_nothing_due (by simp [nmiDue, hn]) (by simp [irqDue, hi])

/-- With nothing pending an instruction's next state is the step's, whether or not it stopped the core. -/
theorem finishStep_next_of_not_pending {t : State} (hn : t.pendingNmi = false) (hi : t.pendingIrq = false) :
    finishStep (.next t) = .next t := by
  by_cases hs : t.mode = .stopped
  · exact finishStep_next_of_stopped hs
  · rw [finishStep_next_of_not_stopped hs, interruptCheck_of_not_pending hn hi, answer_ok]

theorem hostStep_of_next {s t : State} (hm : s.mode = .running) (h : step s = .next t) : hostStep s = (.ok, t) := by
  simp only [hostStep, holds, hm, h, Bool.false_eq_true, if_false]

theorem exec_ldaImm (v : Byte) (s : State) : exec (.ldaImm v) s = .next (setNZ v { s with A := v }) := rfl

/-- A Running core with A9 and a byte at PC and nothing pending loads the byte and passes both. -/
theorem step_ldaImm {s : State} {v : Byte} (hm : s.mode = .running) (hn : s.pendingNmi = false)
    (hi : s.pendingIrq = false) (hop : s.bus.read s.PC = .ok 0xA9#8) (hv : s.bus.read (s.PC + 1#16) = .ok v) :
    step s = .next (setNZ v { s with PC := s.PC + 2#16, A := v }) := by
  have hf : fetch s = .ok (.ldaImm v, s.PC + 2#16) := fetch_f2 (readByte_ok hop) rfl (readByte_ok hv)
  rw [step_of_fetch hm hf, exec_ldaImm]
  exact finishStep_next_of_not_pending hn hi

/-- Settles O19: the reset leaves the core Running at 0x8000 with nothing pending, so its first step is that of
`step_ldaImm`. -/
theorem firstLoadAfterResetGivesItsOperand : Obligations.FirstLoadAfterResetGivesItsOperand := by
  intro d s hlo hhi hop hv
  have first : step { resetRegisters d s with PC := 0x8000#16 } =
      .next (setNZ 0x42#8 { resetRegisters d s with PC := 0x8002#16, A := 0x42#8 }) :=
    step_ldaImm rfl rfl rfl hop hv
  exact ⟨_, _, hostReset_ok hlo hhi, rfl, rfl, rfl, hostStep_of_next rfl first, first, rfl, rfl, rfl, rfl, rfl, rfl⟩

end Sys2Proof.Machine
end

section
/-! The decoder and the encoder are inverse (30_encoding.md sections 2 and 3). -/

namespace Sys2Proof

/-- A whole instruction of any opcode decodes from its own bytes, whatever follows them. -/
theorem decode_encode_instr (op op1 op2 : Byte) (rest : List Byte) :
    decode (encode ((decodeOpcode op).instr op1 op2) ++ rest) = .ok ((decodeOpcode op).instr op1 op2, rest) := by
  have h := decodeOpcode_encodes op
  cases hf : decodeOpcode op with rw [hf] at h
  | f1 i => rw [Format.instr, h.1]; exact decode_f1 hf rest
  | f2 make => rw [Format.instr, (h op1).1]; exact decode_f2 hf op1 rest
  | f3 make => rw [Format.instr, (h op1 op2).1]; exact decode_f3 hf op1 op2 rest

/-- The byte of an instruction's encoding at a position, 0x00 past its end. -/
def encodedByte (i : Instr) (k : Nat) : Byte := (encode i).getD k 0#8

/-- The table entry at an instruction's own opcode, given its own operand bytes, is that instruction. Only an abs16
operand is not given back as it stands: it is assembled from its two bytes (R105). -/
theorem instr_encodedByte (i : Instr) :
    (decodeOpcode (encodedByte i 0)).instr (encodedByte i 1) (encodedByte i 2) = i := by
  cases i
  all_goals simp only [encodedByte, encode, abs16Bytes, List.getD_cons_zero, List.getD_cons_succ]
  case tsbAbs w | oraAbs w | aslAbs w | oraAbsY w | trbAbs w | oraAbsX w | aslAbsX w | jsr w | bitAbs w | andAbs w
  | rolAbs w | andAbsY w | bitAbsX w | andAbsX w | rolAbsX w | jmpAbs w | eorAbs w | lsrAbs w | eorAbsY w
  | nopAbs5C w | eorAbsX w | lsrAbsX w | jmpInd w | adcAbs w | rorAbs w | adcAbsY w | jmpAbsIndX w | adcAbsX w
  | rorAbsX w | styAbs w | staAbs w | stxAbs w | staAbsY w | stzAbs w | staAbsX w | stzAbsX w | ldyAbs w | ldaAbs w
  | ldxAbs w | ldaAbsY w | ldyAbsX w | ldaAbsX w | ldxAbsY w | cpyAbs w | cmpAbs w | decAbs w | cmpAbsY w
  | nopAbsDC w | cmpAbsX w | decAbsX w | cpxAbs w | sbcAbs w | incAbs w | sbcAbsY w | nopAbsFC w | sbcAbsX w
  | incAbsX w => exact congrArg _ (Machine.concat16_highByte_lowByte w)
  all_goals rfl

/-- Settles O2: the instruction is the table entry of its own bytes, and that entry decodes from its encoding. -/
theorem decodeOfEncodeIsTheInstruction : Obligations.DecodeOfEncodeIsTheInstruction := by
  intro i rest _
  rw [← instr_encodedByte i]
  exact decode_encode_instr _ _ _ rest

/-- Settles O3: the bytes that decode begin with an opcode of one of the three formats, and that format's instructions
are encoded with the opcode and their operand bytes. -/
theorem encodeOfDecodeIsTheBytes : Obligations.EncodeOfDecodeIsTheBytes := by
  intro bytes i rest h
  obtain ⟨op, ⟨hf, rfl⟩ | ⟨make, op1, hf, rfl, rfl⟩ | ⟨make, op1, op2, hf, rfl, rfl⟩⟩ := decode_eq_ok h
  all_goals have e := decodeOpcode_encodes op; rw [hf] at e
  · rw [e.1]; rfl
  · rw [(e op1).1]; rfl
  · rw [(e op1 op2).1]; rfl

end Sys2Proof
end

section
/-! What every step does to the address space (20_memory.md R60): a chain of at most six accepted writes. -/

namespace Sys2Proof.Machine

/-- An instruction reaches its address space by at most three writes and keeps the parameters. -/
theorem exec_chain {i : Instr} {s t : State} (h : exec i s = .next t) :
    WriteChain 3 s.bus t.bus ∧ t.params = s.params := by
  obtain ⟨a, hf, -, run⟩ := exec_shape i
  obtain ⟨chain, params, -⟩ := Action.run_next hf ((run s).symm.trans h)
  exact ⟨chain, params⟩

/-- A step makes at most the three writes of its instruction and the three of an interrupt entry, and keeps the
parameters. -/
theorem step_chain {s t : State} (h : step s = .next t) : WriteChain 6 s.bus t.bus ∧ t.params = s.params := by
  obtain ⟨-, rfl⟩ | ⟨-, -, check⟩ | ⟨-, i, next, u, -, he, ⟨-, rfl⟩ | ⟨-, check⟩⟩ := step_cases h
  · exact ⟨.refl _, rfl⟩
  · exact ⟨(interruptCheck_chain check).mono (by decide), (interruptCheck_params check :)⟩
  · exact ⟨(exec_chain he).1.mono (by decide), (exec_chain he).2⟩
  · exact ⟨(exec_chain he).1.trans (interruptCheck_chain check),
      (interruptCheck_params check).trans (exec_chain he).2⟩

/-- Settles O20: a step changes the address space by accepted writes only, and each keeps it well formed. -/
theorem stepKeepsTheInvariant : Obligations.StepKeepsTheInvariant :=
  fun _ _ hs h => (step_chain h).1.wf hs

/-- Settles O22: accepted writes never lead from one kind of address space to another, nor change more of it than its
contents. -/
theorem stepNeverChangesParametersOrTheHandheld : Obligations.StepNeverChangesParametersOrTheHandheld := by
  intro s t h
  obtain ⟨chain, params⟩ := step_chain h
  refine ⟨params, fun k hk => ?_, fun k hk => ?_, fun k hk => ?_⟩ <;> rw [hk] at chain
  · exact chain.handheld
  · exact chain.harness
  · exact chain.external

end Sys2Proof.Machine
end

section
/-! A step by the mode of the core (30_encoding.md R100, 60_exceptions.md R352). -/

namespace Sys2Proof.Machine

theorem step_of_stopped {s : State} (hm : s.mode = .stopped) : step s = .next s := by
  simp only [step, hm]

theorem step_of_waiting {s : State} (hm : s.mode = .waiting) :
    step s = if wakes s = true then answer (wake s) else .next s := by
  simp only [step, hm]

theorem step_of_fetch_error {s : State} {f : Fault} (hm : s.mode = .running) (hf : fetch s = .error f) :
    step s = .fault f := by
  rw [step_running hm, hf]

end Sys2Proof.Machine
end

section
/-! The core is generic over the address space (20_memory.md R60): over two address spaces that answer alike, every
operation of the core answers alike. -/

namespace Sys2Proof.Machine

/-- Related address spaces give the same answer to every access, and writes keep them related. -/
def AnswersAlike (R : AddressSpace → AddressSpace → Prop) : Prop :=
  ∀ m n : AddressSpace, R m n →
    (∀ a : Word, m.read a = n.read a) ∧
    (∀ (a : Word) (v : Byte),
      (∃ m' n' : AddressSpace, m.write a v = .ok m' ∧ n.write a v = .ok n' ∧ R m' n') ∨
      (∃ r : Reason, m.write a v = .error r ∧ n.write a v = .error r))

/-- `t` is `s` bound to a related address space. -/
def Over (R : AddressSpace → AddressSpace → Prop) (s t : State) : Prop :=
  ∃ n, R s.bus n ∧ t = { s with bus := n }

/-- Both operations answer, with related values, or both give the same fault. -/
def Agree {α : Type} (r : α → α → Prop) (x y : Except Fault α) : Prop :=
  (∃ a b, x = .ok a ∧ y = .ok b ∧ r a b) ∨ ∃ f, x = .error f ∧ y = .error f

/-- Both outcomes are next states, equal but for related address spaces, or both are the same fault. -/
def OutcomesAgree (R : AddressSpace → AddressSpace → Prop) (x y : StepOutcome) : Prop :=
  (∃ t u, x = .next t ∧ y = .next u ∧ Over R t u) ∨ ∃ f, x = .fault f ∧ y = .fault f

section Agree

variable {α β : Type} {r : α → α → Prop} {q : β → β → Prop}

theorem Agree.ok {a b : α} (h : r a b) : Agree r (.ok a) (.ok b) := .inl ⟨a, b, rfl, rfl, h⟩

/-- Composed operations agree when their first parts do, and their second parts on related values. -/
theorem Agree.bind {x y : Except Fault α} {f g : α → Except Fault β} (h : Agree r x y)
    (hf : ∀ a b, r a b → Agree q (f a) (g b)) : Agree q (x >>= f) (y >>= g) := by
  obtain ⟨a, b, rfl, rfl, hab⟩ | ⟨e, rfl, rfl⟩ := h
  · exact hf a b hab
  · exact .inr ⟨e, rfl, rfl⟩

/-- As `Agree.bind`, when the first parts are equal. -/
theorem Agree.bind_of_eq {x y : Except Fault α} {f g : α → Except Fault β} (h : x = y)
    (hf : ∀ a, Agree q (f a) (g a)) : Agree q (x >>= f) (y >>= g) := by
  subst h
  cases x with
  | ok a => exact hf a
  | error e => exact .inr ⟨e, rfl, rfl⟩

end Agree

section Generic

variable {R : AddressSpace → AddressSpace → Prop} {s t : State}

theorem Agree.answer {x y : Except Fault State} (h : Agree (Over R) x y) :
    OutcomesAgree R (Machine.answer x) (Machine.answer y) := by
  obtain ⟨a, b, rfl, rfl, hab⟩ | ⟨f, rfl, rfl⟩ := h
  · exact .inl ⟨a, b, rfl, rfl, hab⟩
  · exact .inr ⟨f, rfl, rfl⟩

/-- An update that keeps its surroundings does not look at the address space. -/
theorem Over.update {f : State → State} (hf : KeepsSurroundings f) (h : Over R s t) : Over R (f s) (f t) := by
  obtain ⟨n, hn, rfl⟩ := h
  obtain ⟨-, -, -, -, generic⟩ := hf s
  exact ⟨n, by rwa [hf.bus], generic n⟩

variable (hR : AnswersAlike R)
include hR

/-! ### Reads give the same byte or word -/

theorem readByte_generic (a : Word) (h : Over R s t) : readByte a s = readByte a t := by
  obtain ⟨n, hn, rfl⟩ := h
  obtain ⟨reads, -⟩ := hR _ _ hn
  simp only [readByte, reads]

theorem read16_generic (a : Word) (h : Over R s t) : read16 a s = read16 a t := by
  simp only [read16, readByte_generic hR _ h]

theorem read16zp_generic (z : Byte) (h : Over R s t) : read16zp z s = read16zp z t := by
  simp only [read16zp, readByte_generic hR _ h]

theorem ea_generic (m : MemMode) (h : Over R s t) : ea m s = ea m t := by
  have word := fun a => read16_generic hR a h
  have pointer := fun z => read16zp_generic hR z h
  obtain ⟨n, -, rfl⟩ := h
  cases m with
  | zeroPage | zeroPageX | zeroPageY | absolute | absoluteX | absoluteY => rfl
  | zeroPageIndirect z => exact pointer z
  | indirectX z => exact pointer (z + s.X)
  | indirectY z => simp only [ea, pointer]
  | indirect w => exact word w
  | absoluteIndexedIndirect w => exact word (w + zext16 s.X)

theorem readSrc_generic (src : Src) (h : Over R s t) : readSrc src s = readSrc src t := by
  cases src with
  | imm v => rfl
  | mem m => simp only [readSrc, ea_generic hR m h, readByte_generic hR _ h]

theorem fetch_generic (h : Over R s t) : fetch s = fetch t := by
  have byte := fun a => readByte_generic hR a h
  obtain ⟨n, -, rfl⟩ := h
  simp only [fetch, byte]

/-! ### Writes and the stack -/

theorem writeByte_generic (a : Word) (v : Byte) (h : Over R s t) :
    Agree (Over R) (writeByte a v s) (writeByte a v t) := by
  obtain ⟨n, hn, rfl⟩ := h
  obtain ⟨-, writes⟩ := hR _ _ hn
  obtain ⟨m', n', hm, hn, hr⟩ | ⟨r, hm, hn⟩ := writes a v
  · rw [writeByte_ok hm, writeByte_ok (s := { s with bus := n }) hn]
    exact .ok ⟨n', hr, rfl⟩
  · rw [writeByte_error hm, writeByte_error (s := { s with bus := n }) hn]
    exact .inr ⟨_, rfl, rfl⟩

theorem writeMem_generic (m : MemMode) (v : Byte) (h : Over R s t) :
    Agree (Over R) (writeMem m v s) (writeMem m v t) :=
  .bind_of_eq (ea_generic hR m h) fun a => writeByte_generic hR a v h

theorem push_generic (v : Byte) (h : Over R s t) : Agree (Over R) (push v s) (push v t) := by
  have stored := fun a => writeByte_generic hR a v h
  obtain ⟨n, -, rfl⟩ := h
  refine (stored _).bind ?_
  rintro u _ ⟨k, hk, rfl⟩
  exact .ok ⟨k, hk, rfl⟩

theorem pushWord_generic (w : Word) (h : Over R s t) : Agree (Over R) (pushWord w s) (pushWord w t) :=
  (push_generic hR (highByte w) h).bind fun _ _ h => push_generic hR (lowByte w) h

theorem pull_generic (h : Over R s t) :
    Agree (fun p q : Byte × State => p.1 = q.1 ∧ Over R p.2 q.2) (pull s) (pull t) := by
  have byte := fun a => readByte_generic hR a h
  obtain ⟨n, hn, rfl⟩ := h
  exact .bind_of_eq (byte _) fun b => .ok ⟨rfl, n, hn, rfl⟩

theorem pullWord_generic (h : Over R s t) :
    Agree (fun p q : Word × State => p.1 = q.1 ∧ Over R p.2 q.2) (pullWord s) (pullWord t) := by
  refine (pull_generic hR h).bind ?_
  rintro ⟨lo, u⟩ ⟨_, u'⟩ ⟨rfl, hu⟩
  refine (pull_generic hR hu).bind ?_
  rintro ⟨hi, v⟩ ⟨_, v'⟩ ⟨rfl, hv⟩
  exact .ok ⟨rfl, hv⟩

/-! ### Interrupts, BRK and RTI -/

theorem enterVector_generic (vector : Word) (brk : Bool) (h : Over R s t) :
    Agree (Over R) (enterVector vector brk s) (enterVector vector brk t) := by
  have pushed := fun w => pushWord_generic hR w h
  obtain ⟨n, -, rfl⟩ := h
  refine (pushed s.PC).bind ?_
  rintro u _ ⟨k, hk, rfl⟩
  refine (push_generic hR (pImage brk u) ⟨k, hk, rfl⟩).bind ?_
  rintro v _ hv
  refine .bind_of_eq (read16_generic hR vector hv) fun pc => ?_
  obtain ⟨j, hj, rfl⟩ := hv
  exact .ok ⟨j, hj, rfl⟩

theorem enterInterrupt_generic (k : Interrupt) (h : Over R s t) :
    Agree (Over R) (enterInterrupt k s) (enterInterrupt k t) := by
  refine (enterVector_generic hR (vectorOf k) false h).bind ?_
  rintro u _ ⟨n, hn, rfl⟩
  cases k <;> exact .ok ⟨n, hn, rfl⟩

theorem interruptCheck_generic (h : Over R s t) : Agree (Over R) (interruptCheck s) (interruptCheck t) := by
  have entry := fun k => enterInterrupt_generic hR k h
  obtain ⟨hn, e⟩ | ⟨hn, hi, e⟩ | ⟨hn, hi, e⟩ := interruptCheck_cases s
  all_goals obtain ⟨n, hr, rfl⟩ := h
  · rw [e, interruptCheck_of_nmiDue (s := { s with bus := n }) hn]
    exact entry .nmi
  · rw [e, interruptCheck_of_irqDue (s := { s with bus := n }) hn hi]
    exact entry .irq
  · rw [e, interruptCheck_of_nothing_due (s := { s with bus := n }) hn hi]
    exact .ok ⟨n, hr, rfl⟩

theorem endOfStep_generic (h : Over R s t) : Agree (Over R) (endOfStep s) (endOfStep t) := by
  have mode : t.mode = s.mode := by obtain ⟨n, -, rfl⟩ := h; rfl
  rw [endOfStep_eq, endOfStep_eq, mode]
  split
  · exact .ok h
  · exact interruptCheck_generic hR h

theorem returnFromInterrupt_generic (h : Over R s t) :
    Agree (Over R) (returnFromInterrupt s) (returnFromInterrupt t) := by
  refine (pull_generic hR h).bind ?_
  rintro ⟨p, u⟩ ⟨_, _⟩ ⟨rfl, n, hn, rfl⟩
  refine (pullWord_generic hR (s := loadFlags p u) ⟨n, hn, rfl⟩).bind ?_
  rintro ⟨pc, v⟩ ⟨_, _⟩ ⟨rfl, k, hk, rfl⟩
  exact .ok ⟨k, hk, rfl⟩

/-! ### Instructions and steps -/

theorem rmw_generic {result : Byte → State → Byte} {flags : Byte → State → State} {dst : Dst}
    (hf : Action.Frame (.modify dst result flags)) (h : Over R s t) :
    Agree (Over R) (rmw result flags dst s) (rmw result flags dst t) := by
  obtain ⟨keeps, generic⟩ := hf
  have same : ∀ b, result b s = result b t := by
    obtain ⟨n, -, rfl⟩ := h
    exact fun b => (generic b s n).symm
  cases dst with
  | acc =>
    have acc : t.A = s.A := by obtain ⟨n, -, rfl⟩ := h; rfl
    rw [rmw_acc, rmw_acc, acc, ← same]
    obtain ⟨n, hn, e⟩ := h.update (keeps s.A)
    exact .ok ⟨n, hn, by rw [e]⟩
  | mem m =>
    refine .bind_of_eq (ea_generic hR m h) fun a => .bind_of_eq (readByte_generic hR a h) fun b => ?_
    rw [same]
    exact writeByte_generic hR a _ (h.update (keeps b))

/-- Every shape of instruction answers alike. -/
theorem Action.run_generic {a : Action} (hf : a.Frame) (h : Over R s t) : OutcomesAgree R (a.run s) (a.run t) := by
  cases a with
  | update f => exact .inl ⟨_, _, rfl, rfl, h.update hf⟩
  | read src f =>
    exact (Agree.bind_of_eq (readSrc_generic hR src h) fun m => .ok (h.update (hf m))).answer
  | store m v =>
    have same : v t = v s := by obtain ⟨n, -, rfl⟩ := h; exact hf s n
    have stored := writeMem_generic hR m (v s) h
    rw [Action.run, Action.run, same]
    exact stored.answer
  | modify dst result flags => exact (rmw_generic hR hf h).answer
  | push v =>
    have same : v t = v s := by obtain ⟨n, -, rfl⟩ := h; exact hf s n
    rw [Action.run, Action.run, same]
    exact (push_generic hR (v s) h).answer
  | pull f =>
    refine ((pull_generic hR h).bind ?_).answer
    rintro ⟨b, u⟩ ⟨_, u'⟩ ⟨rfl, hu⟩
    exact .ok (hu.update (hf b))
  | jump m =>
    refine (Agree.bind_of_eq (ea_generic hR m h) fun target => ?_).answer
    obtain ⟨n, hn, rfl⟩ := h
    exact .ok ⟨n, hn, rfl⟩
  | jsr w =>
    have pushed := fun w => pushWord_generic hR w h
    obtain ⟨n, -, rfl⟩ := h
    refine ((pushed _).bind ?_).answer
    rintro u _ ⟨k, hk, rfl⟩
    exact .ok ⟨k, hk, rfl⟩
  | rts =>
    refine ((pullWord_generic hR h).bind ?_).answer
    rintro ⟨w, u⟩ ⟨_, _⟩ ⟨rfl, n, hn, rfl⟩
    exact .ok ⟨n, hn, rfl⟩
  | rti => exact (returnFromInterrupt_generic hR h).answer
  | brk => exact (enterVector_generic hR vecIrq true h).answer

theorem exec_generic (i : Instr) (h : Over R s t) : OutcomesAgree R (exec i s) (exec i t) := by
  obtain ⟨a, hf, -, run⟩ := exec_shape i
  rw [run, run]
  exact a.run_generic hR hf h

theorem finishStep_generic {x y : StepOutcome} (h : OutcomesAgree R x y) :
    OutcomesAgree R (finishStep x) (finishStep y) := by
  obtain ⟨t, u, rfl, rfl, htu⟩ | ⟨f, rfl, rfl⟩ := h
  · exact (endOfStep_generic hR htu).answer
  · exact .inr ⟨f, rfl, rfl⟩

theorem wake_generic (h : Over R s t) : Agree (Over R) (wake s) (wake t) := by
  obtain ⟨n, hn, rfl⟩ := h
  exact interruptCheck_generic hR ⟨n, hn, rfl⟩

theorem step_generic (h : Over R s t) : OutcomesAgree R (step s) (step t) := by
  have fetched : fetch t = fetch s := (fetch_generic hR h).symm
  have mode : t.mode = s.mode := by obtain ⟨n, -, rfl⟩ := h; rfl
  cases hm : s.mode with
  | stopped =>
    rw [step_of_stopped hm, step_of_stopped (mode.trans hm)]
    exact .inl ⟨s, t, rfl, rfl, h⟩
  | waiting =>
    have pending : wakes t = wakes s := by obtain ⟨n, -, rfl⟩ := h; rfl
    rw [step_of_waiting hm, step_of_waiting (mode.trans hm), pending]
    split
    · exact (wake_generic hR h).answer
    · exact .inl ⟨s, t, rfl, rfl, h⟩
  | running =>
    cases hf : fetch s with
    | error f =>
      rw [step_of_fetch_error hm hf, step_of_fetch_error (mode.trans hm) (fetched.trans hf)]
      exact .inr ⟨f, rfl, rfl⟩
    | ok p =>
      rw [step_of_fetch hm hf, step_of_fetch (mode.trans hm) (fetched.trans hf)]
      obtain ⟨n, hn, rfl⟩ := h
      exact finishStep_generic hR (exec_generic hR p.1 ⟨n, hn, rfl⟩)

end Generic

/-- Settles O23: `step_generic`, one lemma per operation of the core, with `Over` taken apart. -/
theorem stepIsTheSameOverIndistinguishableAddressSpaces :
    Obligations.StepIsTheSameOverIndistinguishableAddressSpaces := by
  intro R hR s m n hmn
  obtain ⟨t, _, ht, hu, k, hk, rfl⟩ | same := step_generic hR (s := { s with bus := m }) ⟨n, hmn, rfl⟩
  · exact .inl ⟨t, _, ht, hu, hk, rfl⟩
  · exact .inr same

end Sys2Proof.Machine
end

section
/-! Fetching and running one instruction (30_encoding.md R100 to R104): which byte a failing fetch names, and that
every step has a meaning. -/

namespace Sys2Proof

theorem opcodeLength_cases (op : Byte) :
    (∃ i, decodeOpcode op = .f1 i ∧ opcodeLength op = 1) ∨
    (∃ make, decodeOpcode op = .f2 make ∧ opcodeLength op = 2) ∨
    (∃ make, decodeOpcode op = .f3 make ∧ opcodeLength op = 3) := by
  unfold opcodeLength
  cases hf : decodeOpcode op with
  | f1 i => exact .inl ⟨i, rfl, rfl⟩
  | f2 make => exact .inr (.inl ⟨make, rfl, rfl⟩)
  | f3 make => exact .inr (.inr ⟨make, rfl, rfl⟩)

namespace Machine

variable {s : State} {f : Fault}

theorem fetch_error_opcode (h : readByte s.PC s = .error f) : fetch s = .error f := by
  rw [fetch, h, error_bind]

theorem fetch_f2_error {op : Byte} {make : Byte → Instr} (h : readByte s.PC s = .ok op)
    (hf : decodeOpcode op = .f2 make) (h1 : readByte (s.PC + 1#16) s = .error f) : fetch s = .error f := by
  simp only [fetch, h, ok_bind, hf, h1, error_bind]

theorem fetch_f3_error_second {op : Byte} {make : Byte → Byte → Instr} (h : readByte s.PC s = .ok op)
    (hf : decodeOpcode op = .f3 make) (h1 : readByte (s.PC + 1#16) s = .error f) : fetch s = .error f := by
  simp only [fetch, h, ok_bind, hf, h1, error_bind]

theorem fetch_f3_error_third {op op1 : Byte} {make : Byte → Byte → Instr} (h : readByte s.PC s = .ok op)
    (hf : decodeOpcode op = .f3 make) (h1 : readByte (s.PC + 1#16) s = .ok op1)
    (h2 : readByte (s.PC + 2#16) s = .error f) : fetch s = .error f := by
  simp only [fetch, h, ok_bind, hf, h1, h2, error_bind]

/-- Settles O6: the format of the opcode fixes how many bytes are read, and each format has a fetch lemma for every
byte of it that can fail and one for success; a clause about another length is empty. -/
theorem fetchFaultNamesTheFirstUnreadableByte : Obligations.FetchFaultNamesTheFirstUnreadableByte := by
  intro s hm
  refine ⟨fun f h => step_of_fetch_error hm (fetch_error_opcode h), fun op hop => ?_⟩
  obtain ⟨i, hf, hl⟩ | ⟨make, hf, hl⟩ | ⟨make, hf, hl⟩ := opcodeLength_cases op
  all_goals rw [hl]
  · refine ⟨nofun, nofun, fun _ => ⟨i, decode_f1 hf [], ?_⟩, nofun, nofun⟩
    exact step_of_fetch hm (fetch_f1 hop hf)
  · refine ⟨fun f _ h1 => step_of_fetch_error hm (fetch_f2_error hop hf h1), nofun, nofun,
      fun op1 _ h1 => ⟨make op1, decode_f2 hf op1 [], ?_⟩, nofun⟩
    exact step_of_fetch hm (fetch_f2 hop hf h1)
  · refine ⟨fun f _ h1 => step_of_fetch_error hm (fetch_f3_error_second hop hf h1),
      fun op1 f _ h1 h2 => step_of_fetch_error hm (fetch_f3_error_third hop hf h1 h2), nofun, nofun,
      fun op1 op2 _ h1 h2 => ⟨make op1 op2, decode_f3 hf op1 op2 [], ?_⟩⟩
    exact step_of_fetch hm (fetch_f3 hop hf h1 h2)

theorem finishStep_eq (o : StepOutcome) : finishStep o =
    match o with
    | .next t => if t.mode = .stopped then .next t else answer (interruptCheck t)
    | .fault f => .fault f
    | .refused r => .refused r := by
  cases o with
  | next t =>
    by_cases ht : t.mode = .stopped
    · rw [finishStep_next_of_stopped ht]; simp only [ht, if_true]
    · rw [finishStep_next_of_not_stopped ht]; simp only [ht, if_false]
  | fault f => rfl
  | refused r => rfl

/-- The bytes at PC fetch as the instruction they decode to. -/
theorem fetch_of_decode {bytes : List Byte} {i : Instr} (hd : decode bytes = .ok (i, []))
    (hr : ∀ (k : Nat) (b : Byte), bytes[k]? = some b → readByte (s.PC + BitVec.ofNat 16 k) s = .ok b) :
    fetch s = .ok (i, s.PC + BitVec.ofNat 16 bytes.length) := by
  obtain ⟨op, h⟩ := decode_eq_ok hd
  have first : ∀ rest, bytes = op :: rest → readByte s.PC s = .ok op := by
    rintro rest rfl
    simpa using hr 0 op rfl
  obtain ⟨hf, rfl⟩ | ⟨make, op1, hf, rfl, rfl⟩ | ⟨make, op1, op2, hf, rfl, rfl⟩ := h
  · exact fetch_f1 (first _ rfl) hf
  · exact fetch_f2 (first _ rfl) hf (hr 1 op1 rfl)
  · exact fetch_f3 (first _ rfl) hf (hr 1 op1 rfl) (hr 2 op2 rfl)

/-- Settles O5: the step is the fetch and `finishStep`, whose three outcomes are the statement's. -/
theorem stepRunsTheDecodedInstruction : Obligations.StepRunsTheDecodedInstruction := by
  intro s bytes i hm hd hr
  rw [step_of_fetch hm (fetch_of_decode hd hr), finishStep_eq]
  rfl

theorem exec_ne_refused (i : Instr) (s : State) (r : Refusal) : exec i s ≠ .refused r := by
  obtain ⟨a, -, -, run⟩ := exec_shape i
  rw [run]
  exact a.run_ne_refused s r

/-- Settles O7: no instruction is refused, and every other part of a step answers a state or a fault. -/
theorem noStepIsRefused : Obligations.NoStepIsRefused := by
  refine ⟨fun s r => ?_, exec_ne_refused⟩
  cases hm : s.mode with
  | stopped => rw [step_of_stopped hm]; exact nofun
  | waiting =>
    rw [step_of_waiting hm]
    split
    · exact answer_ne_refused _ r
    · exact nofun
  | running =>
    cases hf : fetch s with
    | error f => rw [step_of_fetch_error hm hf]; exact nofun
    | ok p =>
      rw [step_of_fetch hm hf]
      cases he : exec p.1 { s with PC := p.2 } with
      | next t => exact answer_ne_refused _ r
      | fault f => exact nofun
      | refused q => exact absurd he (exec_ne_refused _ _ q)

theorem exec_fault {i : Instr} (h : exec i s = .fault f) : FaultOf 3 s.bus f := by
  obtain ⟨a, hf, -, run⟩ := exec_shape i
  exact Action.run_fault hf ((run s).symm.trans h)

theorem step_fault (h : step s = .fault f) : FaultOf 6 s.bus f := by
  obtain ⟨-, check⟩ | ⟨-, hf | ⟨i, next, -, he | ⟨u, he, check⟩⟩⟩ := step_fault_cases h
  · exact (interruptCheck_fault check).mono
  · exact fetch_fault hf
  · exact (exec_fault he).mono
  · exact (interruptCheck_fault check).after (n := 3) (exec_chain he).1

/-- Settles O8: `step_fault` says where the fault comes from, and on the two described address spaces the writes before
it do not matter. -/
theorem everyFaultIsAnUnimplementedAccess : Obligations.EveryFaultIsAnUnimplementedAccess := by
  intro s f h
  have source := step_fault h
  obtain ⟨r, a, k, rfl, ⟨addresses, length, written⟩, refused⟩ := id source
  exact ⟨r, a, rfl, ⟨addresses, k, length, written, refused⟩, source.before⟩

theorem hostStep_of_fault (h : (hostStep s).1 = .fault f) : hostStep s = (.fault f, s) := by
  unfold hostStep at h ⊢
  split at h
  · cases h
  next hh =>
    rw [if_neg hh]
    cases hs : step s with rw [hs] at h
    | next t => cases h
    | fault g => cases h; rfl
    | refused r => cases h

/-- Settles O9: a report of a fault comes with the state before the step. -/
theorem faultedStepHasNoEffect : Obligations.FaultedStepHasNoEffect := by
  intro s f h
  have same := hostStep_of_fault h
  rw [same]
  exact ⟨rfl, same⟩

end Machine

end Sys2Proof
end

section
/-! Interrupt entry (60_exceptions.md R350), what is left pending after a step (R41, R346), and holds (R352). -/

namespace Sys2Proof.Machine

/-! ### Entry -/

/-- The core has entered an interrupt of this kind: in_service and I are set, it runs, and PC is the vector's. -/
def Entered (k : Interrupt) (t : State) : Prop :=
  t.inService = true ∧ t.I = true ∧ t.mode = .running ∧ read16 (vectorOf k) t = .ok t.PC

/-- The whole state an entry leaves, with the bytes it writes and reads. -/
theorem enterInterrupt_ok {k : Interrupt} {s : State} {b1 b2 b3 : AddressSpace} {lo hi : Byte}
    (h1 : s.bus.write (stackAddr s.SP) (highByte s.PC) = .ok b1)
    (h2 : b1.write (stackAddr (s.SP - 1#8)) (lowByte s.PC) = .ok b2)
    (h3 : b2.write (stackAddr (s.SP - 2#8)) (pImage false s) = .ok b3)
    (h4 : b3.read (vectorOf k) = .ok lo) (h5 : b3.read (vectorOf k + 1#16) = .ok hi) :
    enterInterrupt k s = .ok (clearPending k { s with
      bus := b3, SP := s.SP - 3#8, PC := concat16 hi lo, I := true, D := s.D && !s.params.interruptClearsD,
      inService := true, mode := .running }) :=
  enterInterrupt_eq_ok.2 ⟨_, enterVector_ok h1 h2 h3 h4 h5, rfl⟩

/-- Settles O13: the entry of either kind, with its vector written out. -/
theorem interruptEntryStacksPcAndFlagsAndTakesTheVector :
    Obligations.InterruptEntryStacksPcAndFlagsAndTakesTheVector := by
  intro s b1 b2 b3 lo hi h1 h2 h3
  exact ⟨enterInterrupt_ok (k := .nmi) h1 h2 h3, enterInterrupt_ok (k := .irq) h1 h2 h3⟩

theorem exec_nop (s : State) : exec .nop s = .next s := rfl

/-- A NOP leaves everything but PC, so a due NMI is entered at the end of its step. -/
theorem step_nop_of_nmiDue {s : State} (hm : s.mode = .running) (hop : s.bus.read s.PC = .ok 0xEA#8)
    (due : nmiDue s = true) : step s = answer (enterInterrupt .nmi { s with PC := s.PC + 1#16 }) := by
  have notStopped : s.mode ≠ .stopped := by rw [hm]; exact nofun
  rw [step_of_fetch hm (fetch_f1 (readByte_ok hop) rfl), exec_nop,
    finishStep_next_of_not_stopped (by exact notStopped), interruptCheck_of_nmiDue (by exact due)]

/-- Settles O14: the request makes the NMI due whatever I is, since the core is not gated. -/
theorem nmiRequestIsTakenWhateverIIs : Obligations.NmiRequestIsTakenWhateverIIs := by
  intro s b1 b2 b3 lo hi hm hs hop h1 h2 h3 h4 h5
  have due : nmiDue (requestInterrupt .nmi s) = true :=
    nmiDue_iff.2 ⟨rfl, fun gate => Bool.false_ne_true (hs.symm.trans gate.2)⟩
  rw [step_nop_of_nmiDue (s := requestInterrupt .nmi s) hm hop due]
  have entry := enterInterrupt_ok (k := .nmi) (s := { requestInterrupt .nmi s with PC := s.PC + 1#16 }) h1 h2 h3 h4 h5
  exact congrArg answer entry

theorem enterInterrupt_entered {k : Interrupt} {s t : State} (h : enterInterrupt k s = .ok t) : Entered k t := by
  obtain ⟨u, hu, rfl⟩ := enterInterrupt_eq_ok.1 h
  obtain ⟨b1, b2, b3, lo, hi, -, -, -, hlo, hhi, rfl⟩ := enterVector_eq_ok.1 hu
  cases k <;> exact ⟨rfl, rfl, rfl, read16_ok hlo hhi⟩

/-- An IRQ entry clears its own request only (R350). -/
theorem enterInterrupt_irq_pendingNmi {s t : State} (h : enterInterrupt .irq s = .ok t) :
    t.pendingNmi = s.pendingNmi := by
  obtain ⟨u, hu, rfl⟩ := enterInterrupt_eq_ok.1 h
  obtain ⟨b1, b2, b3, lo, hi, -, -, -, -, -, rfl⟩ := enterVector_eq_ok.1 hu
  rfl

/-! ### Pending requests -/

/-- The check leaves each request as it was, or enters it. -/
theorem interruptCheck_pending {s t : State} (h : interruptCheck s = .ok t) :
    (t.pendingNmi = s.pendingNmi ∨ Entered .nmi t) ∧ (t.pendingIrq = s.pendingIrq ∨ Entered .irq t) := by
  obtain ⟨-, e⟩ | ⟨-, -, e⟩ | ⟨-, -, e⟩ := interruptCheck_cases s <;> rw [e] at h
  · exact ⟨.inr (enterInterrupt_entered h), .inl (enterInterrupt_nmi_pendingIrq h)⟩
  · exact ⟨.inl (enterInterrupt_irq_pendingNmi h), .inr (enterInterrupt_entered h)⟩
  · cases h
    exact ⟨.inl rfl, .inl rfl⟩

theorem exec_pending {i : Instr} {s t : State} (h : exec i s = .next t) :
    t.pendingNmi = s.pendingNmi ∧ t.pendingIrq = s.pendingIrq := by
  obtain ⟨a, hf, -, run⟩ := exec_shape i
  obtain ⟨-, -, nmi, irq, -⟩ := Action.run_next hf ((run s).symm.trans h)
  exact ⟨nmi, irq⟩

/-- A step leaves each request as it was, or enters it. -/
theorem step_pending {s t : State} (h : step s = .next t) :
    (t.pendingNmi = s.pendingNmi ∨ Entered .nmi t) ∧ (t.pendingIrq = s.pendingIrq ∨ Entered .irq t) := by
  obtain ⟨-, rfl⟩ | ⟨-, -, check⟩ | ⟨-, i, next, u, -, he, after⟩ := step_cases h
  · exact ⟨.inl rfl, .inl rfl⟩
  · exact (interruptCheck_pending check :)
  · obtain ⟨nmi, irq⟩ := exec_pending he
    obtain ⟨-, rfl⟩ | ⟨-, check⟩ := after
    · exact ⟨.inl nmi, .inl irq⟩
    · have := interruptCheck_pending check
      rwa [nmi, irq] at this

/-- Settles O15: a pending bit that a step does not leave as it was is one whose interrupt it entered. -/
theorem pendingBitIsClearedOnlyByTakingIt : Obligations.PendingBitIsClearedOnlyByTakingIt := by
  intro s t h
  obtain ⟨nmi, irq⟩ := step_pending h
  exact ⟨fun p => nmi.imp_left (·.trans p), fun p => irq.imp_left (·.trans p)⟩

/-- Settles O16: of the shapes of instructions only RTI's clears in_service, and none sets it. -/
theorem onlyRtiClearsInService : Obligations.OnlyRtiClearsInService := by
  intro i s t h
  obtain ⟨a, hf, isRti, run⟩ := exec_shape i
  obtain ⟨-, -, -, -, cleared, kept⟩ := Action.run_next hf ((run s).symm.trans h)
  split
  next hi => exact cleared (isRti.2 hi)
  next hi => exact kept (mt isRti.1 hi)

/-! ### Holds -/

/-- A check that leaves the core Waiting found nothing due: an entry makes it Running. -/
theorem interruptCheck_waiting {s t : State} (h : interruptCheck s = .ok t) (ht : t.mode = .waiting) :
    t = s ∧ nmiDue s = false ∧ irqDue s = false := by
  have entry : ∀ k, enterInterrupt k s ≠ .ok t := by
    intro k e
    obtain ⟨-, -, running, -⟩ := enterInterrupt_entered e
    cases ht.symm.trans running
  obtain ⟨-, e⟩ | ⟨-, -, e⟩ | ⟨hn, hi, e⟩ := interruptCheck_cases s <;> rw [e] at h
  · exact absurd h (entry _)
  · exact absurd h (entry _)
  · exact ⟨(Except.ok.inj h).symm, hn, hi⟩

theorem not_wakes_iff {s : State} : wakes s = false ↔ s.pendingNmi = false ∧ s.pendingIrq = false :=
  Bool.or_eq_false_iff

/-- A Waiting core after a step has nothing due: either it held with nothing pending, or the check at the end of the
step found nothing due. -/
theorem step_waiting {s t : State} (h : step s = .next t) (ht : t.mode = .waiting) :
    nmiDue t = false ∧ irqDue t = false := by
  cases hm : s.mode with
  | stopped =>
    rw [step_of_stopped hm] at h
    cases h
    cases hm.symm.trans ht
  | waiting =>
    rw [step_of_waiting hm] at h
    split at h
    · obtain ⟨rfl, -⟩ := interruptCheck_waiting (answer_eq_next.1 h) ht
      cases ht
    next hw =>
      cases h
      obtain ⟨hn, hi⟩ := not_wakes_iff.1 (Bool.eq_false_iff.2 hw)
      simp only [nmiDue, irqDue, hn, hi, Bool.false_and, and_self]
  | running =>
    obtain ⟨hr, -⟩ | ⟨hw, -⟩ | ⟨-, i, next, u, -, -, ⟨hu, rfl⟩ | ⟨-, check⟩⟩ := step_cases h
    · exact absurd hm hr
    · cases hm.symm.trans hw
    · cases hu.symm.trans ht
    · obtain ⟨rfl, due⟩ := interruptCheck_waiting check ht
      exact due

/-- Settles O11: `step_waiting`, with what due means (R347) written out. -/
theorem waitingAfterStepMeansNothingDue : Obligations.WaitingAfterStepMeansNothingDue := by
  intro s t h ht
  obtain ⟨nmi, irq⟩ := step_waiting h ht
  exact ⟨fun due => Bool.eq_false_iff.1 nmi (nmiDue_iff.2 due), fun due => Bool.eq_false_iff.1 irq (irqDue_iff.2 due)⟩

theorem holds_of_stopped {s : State} (hm : s.mode = .stopped) : holds s = true := by
  simp only [holds, hm]

theorem holds_of_waiting {s : State} (hm : s.mode = .waiting) (hn : s.pendingNmi = false)
    (hi : s.pendingIrq = false) : holds s = true := by
  simp only [holds, hm, not_wakes_iff.2 ⟨hn, hi⟩, Bool.not_false]

theorem hostStep_of_holds {s : State} (h : holds s = true) : hostStep s = (.hold, s) := by
  rw [hostStep, if_pos h]

theorem requestInterrupt_mode (k : Interrupt) (s : State) : (requestInterrupt k s).mode = s.mode := by
  cases k <;> rfl

/-- Settles O10: a hold by the mode and the requests, the wake by `step_waiting_of_pending`, and a reset by
`hostReset_ok`. -/
theorem holdsAreLiftedOnlyAsTheTableSays : Obligations.HoldsAreLiftedOnlyAsTheTableSays := by
  intro s
  refine ⟨fun hm => ⟨hostStep_of_holds (holds_of_stopped hm), step_of_stopped hm, fun k => ?_, rfl, rfl⟩,
    fun hm hn hi => ⟨hostStep_of_holds (holds_of_waiting hm hn hi), ?_⟩, step_waiting_of_pending,
    fun d lo hi hlo hhi => ⟨_, hostReset_ok hlo hhi, rfl⟩⟩
  · exact hostStep_of_holds (holds_of_stopped ((requestInterrupt_mode k s).trans hm))
  · rw [step_of_waiting hm, if_neg (Bool.eq_false_iff.1 (not_wakes_iff.2 ⟨hn, hi⟩))]

/-! ### Host operations and the invariant -/

theorem requestInterrupt_bus (k : Interrupt) (s : State) : (requestInterrupt k s).bus = s.bus := by
  cases k <;> rfl

/-- A reset leaves the address space as it was, whatever it answers (R380). -/
theorem hostReset_bus {d : Draws} {s t : State} (h : hostReset d s = .ok t ∨ ∃ f, hostReset d s = .fault f t) :
    t.bus = s.bus := by
  cases hv : read16 vecReset (resetRegisters d s) with
  | ok pc =>
    rw [hostReset_of_vector hv] at h
    obtain h | ⟨f, h⟩ := h <;> cases h
    rfl
  | error g =>
    rw [hostReset_of_vector_fault hv] at h
    obtain h | ⟨f, h⟩ := h <;> cases h
    rfl

/-- Settles O21: a request writes its pending bit alone, and neither a request nor a reset touches the address space,
which is all the invariant speaks of. -/
theorem requestsLatchAndHostOperationsKeepTheInvariant :
    Obligations.RequestsLatchAndHostOperationsKeepTheInvariant := by
  intro s
  refine ⟨rfl, rfl, fun k => by cases k <;> rfl, fun hs => ⟨fun k => ?_, fun d t h => ?_⟩⟩
  · rwa [State.Inv, requestInterrupt_bus]
  · rwa [State.Inv, hostReset_bus h]

/-- Settles O18: the reset of `State.reset` reads its vector from unlisted bytes (log 1), and an empty memory is
canonical. -/
theorem resetStateIsAResetAndWellFormed : Obligations.ResetStateIsAResetAndWellFormed :=
  ⟨hostReset_ok (lo := unlistedByte) (hi := unlistedByte) rfl rfl, (rfl : State.reset.bus.wf = true), rfl, rfl, rfl,
    rfl, rfl, rfl⟩

end Sys2Proof.Machine
end

section
/-! Effective addresses (40_addressing.md R134 to R144). -/

namespace Sys2Proof.Machine

variable {s : State}

/-- Settles O29: each address is a sum of bytes or words, whose number wraps at its own width. -/
theorem directModesGiveTheirEffectiveAddress : Obligations.DirectModesGiveTheirEffectiveAddress := by
  intro s z w
  refine ⟨⟨_, rfl, zext16_toNat z⟩, ⟨_, rfl, ?_⟩, ⟨_, rfl, ?_⟩, ⟨_, rfl, rfl⟩, ⟨_, rfl, ?_⟩, ⟨_, rfl, ?_⟩⟩
  · rw [zext16_toNat, BitVec.toNat_add]
  · rw [zext16_toNat, BitVec.toNat_add]
  · rw [BitVec.toNat_add, zext16_toNat]
  · rw [BitVec.toNat_add, zext16_toNat]

/-- The pointer's word is its two bytes, the fault that of the first of them that cannot be read. -/
def ReadsPointer (read : Except Fault Word) (m : AddressSpace) (a b : Word) : Prop :=
  (∀ lo hi : Byte, m.read a = .ok lo → m.read b = .ok hi → read = .ok (concat16 hi lo)) ∧
  (∀ r : Reason, m.read a = .error r → read = .error (.busFault r a)) ∧
  (∀ (lo : Byte) (r : Reason), m.read a = .ok lo → m.read b = .error r → read = .error (.busFault r b))

/-- A zero-page pointer wraps inside the zero page. -/
theorem read16zp_readsPointer {z : Byte} {a b : Word} (ha : a.toNat = z.toNat) (hb : b.toNat = (z.toNat + 1) % 256) :
    ReadsPointer (read16zp z s) s.bus a b := by
  obtain rfl : a = zext16 z := eq_zext16 ha
  obtain rfl : b = zext16 (z + 1#8) := eq_zext16 (by rw [hb, BitVec.toNat_add]; rfl)
  exact ⟨fun _ _ => read16zp_ok, fun _ => read16zp_error_low, fun _ _ => read16zp_error_high⟩

/-- An absolute pointer wraps at 65536. -/
theorem read16_readsPointer {w a b : Word} (ha : a.toNat = w.toNat) (hb : b.toNat = (w.toNat + 1) % 65536) :
    ReadsPointer (read16 w s) s.bus a b := by
  obtain rfl : a = w := BitVec.eq_of_toNat_eq ha
  obtain rfl : b = a + 1#16 := BitVec.eq_of_toNat_eq (by rw [hb, BitVec.toNat_add]; rfl)
  exact ⟨fun _ _ => read16_ok, fun _ => read16_error_low, fun _ _ => read16_error_high⟩

/-- The mode gives the pointer's word plus `k` mod 65536; its faults are the pointer's. -/
def ReadsPointerPlus (mode : MemMode) (s : State) (a b : Word) (k : Nat) : Prop :=
  (∀ lo hi : Byte, s.bus.read a = .ok lo → s.bus.read b = .ok hi →
    ∃ e : Word, ea mode s = .ok e ∧ e.toNat = (hi.toNat * 256 + lo.toNat + k) % 65536) ∧
  (∀ r : Reason, s.bus.read a = .error r → ea mode s = .error (.busFault r a)) ∧
  (∀ (lo : Byte) (r : Reason), s.bus.read a = .ok lo → s.bus.read b = .error r →
    ea mode s = .error (.busFault r b))

theorem ReadsPointer.ea_indirectY {z : Byte} {a b : Word} (h : ReadsPointer (read16zp z s) s.bus a b) :
    ReadsPointerPlus (.indirectY z) s a b s.Y.toNat := by
  obtain ⟨word, low, high⟩ := h
  refine ⟨fun lo hi hlo hhi => ⟨concat16 hi lo + zext16 s.Y, ?_, ?_⟩, fun r hr => ?_, fun lo r hlo hr => ?_⟩
  · rw [ea, word lo hi hlo hhi, ok_bind, pure_eq]
  · rw [BitVec.toNat_add, concat16_toNat, zext16_toNat]
  · rw [ea, low r hr, error_bind]
  · rw [ea, high lo r hlo hr, error_bind]

theorem ReadsPointer.ea_unindexed {mode : MemMode} {a b : Word} (h : ReadsPointer (ea mode s) s.bus a b) :
    ReadsPointerPlus mode s a b 0 := by
  obtain ⟨word, low, high⟩ := h
  refine ⟨fun lo hi hlo hhi => ⟨concat16 hi lo, word lo hi hlo hhi, ?_⟩, low, high⟩
  rw [concat16_toNat]
  omega

/-- Settles O30: every indirect mode reads one pointer, through the zero page or not, at the address that its operand
and X give; only (zp),Y adds to what it holds. -/
theorem indirectModesReadTheirPointer : Obligations.IndirectModesReadTheirPointer := by
  intro s z w
  have zpX : (z.toNat + s.X.toNat) % 256 = (z + s.X).toNat := (BitVec.toNat_add z s.X).symm
  have absX : (w.toNat + s.X.toNat) % 65536 = (w + zext16 s.X).toNat := by rw [BitVec.toNat_add, zext16_toNat]
  simp only [List.forall_mem_cons, List.not_mem_nil, false_implies, implies_true, and_true, zpX, absX]
  exact ⟨fun a b ha hb => (read16zp_readsPointer ha hb).ea_unindexed (mode := .zeroPageIndirect z),
    fun a b ha hb => (read16zp_readsPointer ha hb).ea_unindexed (mode := .indirectX z),
    fun a b ha hb => (read16zp_readsPointer ha hb).ea_indirectY,
    fun a b ha hb => (read16_readsPointer ha hb).ea_unindexed (mode := .indirect w),
    fun a b ha hb => (read16_readsPointer ha hb).ea_unindexed (mode := .absoluteIndexedIndirect w)⟩

end Sys2Proof.Machine
end

section
/-! Instructions of the read class (41_load_store.md, 42_alu.md): each is one read of its operand byte M and one new
state computed from M, which the obligations write out. -/

namespace Sys2Proof.Machine

open Sys2Proof.Statements

/-! ### One read, then a new state -/

/-- A computation that only works on a value read is the read with its value replaced. -/
theorem bind_pure_eq_map {ε α β : Type} {x : Except ε α} {f g : α → β} (h : ∀ a, f a = g a) :
    (x >>= fun a => pure (f a)) = x.map g := by
  cases x with
  | ok a => exact congrArg Except.ok (h a)
  | error e => rfl

section ReadForms

variable {s : State} {effect : Byte → State}

/-- Immediate forms of an operation whose new state is `effect M`. The equation of the two lists says of each form
listed that it runs as the operation on its operand. -/
theorem immediateForms_of_map {op : Byte → State → Except Fault State} {immediates : List (Instr × Byte)}
    (h : ∀ v, op v s = (readSrc (.imm v) s).map effect)
    (runs : immediates.map (fun p => exec p.1 s) = immediates.map fun p => answer (op p.2 s)) :
    ∀ p ∈ immediates, exec p.1 s = .next (effect p.2) := by
  intro p hp
  rw [List.map_inj_left.1 runs p hp, h]
  rfl

/-- Memory forms of such an operation, as `ReadForms` asks for them. -/
theorem memoryForms_of_map {op : MemMode → State → Except Fault State} {forms : List (Instr × MemMode)}
    (h : ∀ m, op m s = (readSrc (.mem m) s).map effect)
    (runs : forms.map (fun p => exec p.1 s) = forms.map fun p => answer (op p.2 s)) :
    ReadForms [] forms s effect := by
  refine ⟨fun _ hp => absurd hp List.not_mem_nil, fun p hp => ?_⟩
  rw [List.map_inj_left.1 runs p hp, h]
  refine ⟨fun a m ha hm => ?_, fun f hf => ?_, fun a r ha hr => ?_⟩
  · rw [readSrc_mem_ok ha hm]; rfl
  · rw [readSrc_mem_error_ea hf]; rfl
  · rw [readSrc_mem_error ha hr]; rfl

/-- All forms of an operation on an operand of either kind. -/
theorem readForms_of_map {op : Src → State → Except Fault State} {immediates : List (Instr × Byte)}
    {forms : List (Instr × MemMode)} (h : ∀ src, op src s = (readSrc src s).map effect)
    (immediate : immediates.map (fun p => exec p.1 s) = immediates.map fun p => answer (op (.imm p.2) s))
    (memory : forms.map (fun p => exec p.1 s) = forms.map fun p => answer (op (.mem p.2) s)) :
    ReadForms immediates forms s effect := by
  obtain ⟨-, hm⟩ := memoryForms_of_map (fun m => h (.mem m)) memory
  exact ⟨immediateForms_of_map (fun v => h (.imm v)) immediate, hm⟩

end ReadForms

/-! ### N and Z, as the obligations write them -/

theorem beq_zero_eq_decide_eq (v : Byte) : (v == 0x00#8) = decide (v = 0#8) := beq_eq_decide v 0#8

/-- `SetNZ` (R17) with N as bit 7. -/
theorem setNZ_eq (v : Byte) (s : State) : setNZ v s = { s with N := v.getLsbD 7, Z := decide (v = 0#8) } := by
  rw [setNZ, msb_eq_bit7, beq_zero_eq_decide_eq]

/-- `SetNZ` in numbers. -/
theorem setNZ_eq_toNat (v : Byte) (s : State) :
    setNZ v s = { s with N := decide (128 ≤ v.toNat), Z := decide (v.toNat = 0) } := by
  rw [setNZ, msb_eq_decide_128, beq_zero_eq_decide]

/-! ### Loads (R160 to R162) -/

theorem loadA_eq (src : Src) (s : State) : loadA src s =
    (readSrc src s).map fun m => { s with A := m, N := decide (128 ≤ m.toNat), Z := decide (m.toNat = 0) } :=
  bind_pure_eq_map fun m => setNZ_eq_toNat m _

theorem loadX_eq (src : Src) (s : State) : loadX src s =
    (readSrc src s).map fun m => { s with X := m, N := decide (128 ≤ m.toNat), Z := decide (m.toNat = 0) } :=
  bind_pure_eq_map fun m => setNZ_eq_toNat m _

theorem loadY_eq (src : Src) (s : State) : loadY src s =
    (readSrc src s).map fun m => { s with Y := m, N := decide (128 ≤ m.toNat), Z := decide (m.toNat = 0) } :=
  bind_pure_eq_map fun m => setNZ_eq_toNat m _

/-- Settles O31: every form of a load is its operation on that form's operand. -/
theorem loadsSetTheirRegisterAndNZ : Obligations.LoadsSetTheirRegisterAndNZ := by
  intro s v z w
  exact ⟨readForms_of_map (fun src => loadA_eq src s) rfl rfl, readForms_of_map (fun src => loadX_eq src s) rfl rfl,
    readForms_of_map (fun src => loadY_eq src s) rfl rfl⟩

/-! ### Logic, compare and bit test (R186 to R192) -/

theorem andA_eq (src : Src) (s : State) : andA src s = (readSrc src s).map fun m =>
    { s with A := s.A &&& m, N := (s.A &&& m).getLsbD 7, Z := decide (s.A &&& m = 0#8) } :=
  bind_pure_eq_map fun _ => setNZ_eq _ _

theorem orA_eq (src : Src) (s : State) : orA src s = (readSrc src s).map fun m =>
    { s with A := s.A ||| m, N := (s.A ||| m).getLsbD 7, Z := decide (s.A ||| m = 0#8) } :=
  bind_pure_eq_map fun _ => setNZ_eq _ _

theorem eorA_eq (src : Src) (s : State) : eorA src s = (readSrc src s).map fun m =>
    { s with A := s.A ^^^ m, N := (s.A ^^^ m).getLsbD 7, Z := decide (s.A ^^^ m = 0#8) } :=
  bind_pure_eq_map fun _ => setNZ_eq _ _

/-- Settles O39: every form of AND, ORA and EOR is its operation on that form's operand. -/
theorem logicCombinesWithA : Obligations.LogicCombinesWithA := by
  intro s v z w
  exact ⟨readForms_of_map (fun src => andA_eq src s) rfl rfl, readForms_of_map (fun src => orA_eq src s) rfl rfl,
    readForms_of_map (fun src => eorA_eq src s) rfl rfl⟩

/-- The sign of the difference, in numbers. -/
theorem msb_sub_eq_decide (reg m : Byte) :
    (reg - m).msb = decide (128 ≤ (reg.toNat + 256 - m.toNat) % 256) := by
  have := m.isLt
  rw [msb_eq_decide_128, BitVec.toNat_sub, show 2 ^ 8 - m.toNat + reg.toNat = reg.toNat + 256 - m.toNat by omega]

theorem compareWith_eq (reg : Byte) (src : Src) (s : State) : compareWith reg src s = (readSrc src s).map fun m =>
    { s with C := decide (m.toNat ≤ reg.toNat), Z := decide (reg = m),
             N := decide (128 ≤ (reg.toNat + 256 - m.toNat) % 256) } :=
  bind_pure_eq_map fun m => by rw [compareFlags, msb_sub_eq_decide, beq_eq_decide]

/-- Settles O40: every form of a comparison is `compareWith` on its register and that form's operand. -/
theorem comparesSetCarryZeroNegative : Obligations.ComparesSetCarryZeroNegative := by
  intro s v z w
  exact ⟨readForms_of_map (fun src => compareWith_eq s.A src s) rfl rfl,
    readForms_of_map (fun src => compareWith_eq s.X src s) rfl rfl,
    readForms_of_map (fun src => compareWith_eq s.Y src s) rfl rfl⟩

theorem testFlags_eq (m : Byte) (s : State) : testFlags m s = { s with Z := decide (s.A &&& m = 0#8) } := by
  rw [testFlags, beq_zero_eq_decide_eq]

theorem bitTest_eq (mode : MemMode) (s : State) : bitTest mode s = (readSrc (.mem mode) s).map fun m =>
    { s with Z := decide (s.A &&& m = 0#8), N := m.getLsbD 7, V := m.getLsbD 6 } :=
  bind_pure_eq_map fun m => by rw [testFlags_eq]

theorem bitTestImmediate_eq (v : Byte) (s : State) : bitTestImmediate v s = (readSrc (.imm v) s).map fun m =>
    { s with Z := decide (s.A &&& m = 0#8) } :=
  bind_pure_eq_map fun m => testFlags_eq m s

/-- Settles O41: the memory forms are `bitTest`, the immediate form writes Z alone. -/
theorem bitTestsAgainstA : Obligations.BitTestsAgainstA := by
  intro s v z w
  exact ⟨memoryForms_of_map (fun m => bitTest_eq m s) rfl,
    immediateForms_of_map (fun v => bitTestImmediate_eq v s) rfl, fun _ hp => absurd hp List.not_mem_nil⟩

/-! ### Binary addition and subtraction (R180, R184, R185) -/

theorem setSum_eq (r : Sum) (s : State) : setSum r s = { s with
    A := r.result, C := r.carry, V := r.overflow, N := r.result.getLsbD 7, Z := decide (r.result = 0#8) } :=
  setNZ_eq _ _

theorem adcSum_binary {s : State} (hD : s.D = false) (m : Byte) : adcSum s m = addBin s.A m s.C := by
  simp only [adcSum, hD, Bool.false_eq_true, if_false]

theorem sbcSum_binary {s : State} (hD : s.D = false) (m : Byte) : sbcSum s m = addBin s.A (~~~m) s.C := by
  simp only [sbcSum, hD, Bool.false_eq_true, if_false]

theorem addBin_result_eq (a m : Byte) (c : Bool) :
    (addBin a m c).result = BitVec.ofNat 8 (a.toNat + m.toNat + c.toNat) := by
  rw [addBin, carryNat_eq_toNat]

theorem addBin_carry_eq (a m : Byte) (c : Bool) :
    (addBin a m c).carry = decide (256 ≤ a.toNat + m.toNat + c.toNat) := by
  rw [addBin_carry, carryNat_eq_toNat]

theorem addBin_overflow_eq_signed_sum (a m : Byte) (c : Bool) : (addBin a m c).overflow =
    (decide (a.toInt + m.toInt + c.toNat < -128) || decide (127 < a.toInt + m.toInt + c.toNat)) := by
  rw [Bool.eq_iff_iff, addBin_overflow_iff_signed_sum, carryNat_eq_toNat, Bool.or_eq_true, decide_eq_true_iff,
    decide_eq_true_iff]

theorem addWithCarry_binary {s : State} (hD : s.D = false) (src : Src) :
    addWithCarry src s = (readSrc src s).map fun m => { s with
      A := BitVec.ofNat 8 (s.A.toNat + m.toNat + s.C.toNat),
      C := decide (256 ≤ s.A.toNat + m.toNat + s.C.toNat),
      V := decide (s.A.toInt + m.toInt + s.C.toNat < -128) || decide (127 < s.A.toInt + m.toInt + s.C.toNat),
      N := decide (128 ≤ (s.A.toNat + m.toNat + s.C.toNat) % 256),
      Z := decide ((s.A.toNat + m.toNat + s.C.toNat) % 256 = 0) } := by
  refine bind_pure_eq_map fun m => ?_
  rw [adcSum_binary hD, setSum, setNZ_eq_toNat, addBin_result_eq, addBin_carry_eq, addBin_overflow_eq_signed_sum,
    BitVec.toNat_ofNat]

/-- Settles O35: every form of ADC is `addWithCarry` on that form's operand. -/
theorem adcBinaryAddsWithCarry : Obligations.AdcBinaryAddsWithCarry := by
  intro s v z w hD
  exact readForms_of_map (addWithCarry_binary hD) rfl rfl

/-! A subtraction is the addition of the complement (R185): `255 - M` in place of `M`, so every sum is 256 more than
the difference. -/

theorem toInt_not (m : Byte) : (~~~m).toInt = -m.toInt - 1 := by
  have := m.isLt
  rw [toInt_eq_ite_128, toInt_eq_ite_128, not_toNat]
  split <;> split <;> omega

theorem addBin_not_result (a m : Byte) (c : Bool) :
    (addBin a (~~~m) c).result = BitVec.ofInt 8 ((a.toNat : Int) - m.toNat - (1 - c.toNat)) := by
  have := m.isLt
  apply BitVec.eq_of_toNat_eq
  rw [addBin_result_eq, not_toNat, BitVec.toNat_ofNat, BitVec.toNat_ofInt]
  omega

theorem addBin_not_carry (a m : Byte) (c : Bool) :
    (addBin a (~~~m) c).carry = decide (m.toNat + (1 - c.toNat) ≤ a.toNat) := by
  have := m.isLt
  have := c.toNat_le
  rw [addBin_carry_eq, not_toNat, decide_eq_decide]
  omega

theorem addBin_not_overflow (a m : Byte) (c : Bool) : (addBin a (~~~m) c).overflow =
    (decide (a.toInt - m.toInt - (1 - c.toNat) < -128) || decide (127 < a.toInt - m.toInt - (1 - c.toNat))) := by
  rw [addBin_overflow_eq_signed_sum, toInt_not,
    show a.toInt + (-m.toInt - 1) + c.toNat = a.toInt - m.toInt - (1 - c.toNat) by ring]

theorem subWithBorrow_binary {s : State} (hD : s.D = false) (src : Src) :
    subWithBorrow src s = (readSrc src s).map fun m => { s with
      A := BitVec.ofInt 8 ((s.A.toNat : Int) - m.toNat - (1 - s.C.toNat)),
      C := decide (m.toNat + (1 - s.C.toNat) ≤ s.A.toNat),
      V := decide (s.A.toInt - m.toInt - (1 - s.C.toNat) < -128) ||
        decide (127 < s.A.toInt - m.toInt - (1 - s.C.toNat)),
      N := (BitVec.ofInt 8 ((s.A.toNat : Int) - m.toNat - (1 - s.C.toNat))).getLsbD 7,
      Z := decide (BitVec.ofInt 8 ((s.A.toNat : Int) - m.toNat - (1 - s.C.toNat)) = 0#8) } := by
  refine bind_pure_eq_map fun m => ?_
  rw [sbcSum_binary hD, setSum_eq, addBin_not_result, addBin_not_carry, addBin_not_overflow]

/-- Settles O36: every form of SBC is `subWithBorrow` on that form's operand. -/
theorem sbcBinarySubtractsWithBorrow : Obligations.SbcBinarySubtractsWithBorrow := by
  intro s v z w hD
  exact readForms_of_map (subWithBorrow_binary hD) rfl rfl

/-! ### Decimal addition and subtraction (R181 to R185) -/

theorem isBcd_iff {a : Byte} : isBcd a = true ↔ a.toNat / 16 ≤ 9 ∧ a.toNat % 16 ≤ 9 := by
  rw [isBcd, Bool.and_eq_true, decide_eq_true_iff, decide_eq_true_iff]

theorem toBcd_digits {tens units : Nat} (h : units ≤ 9) :
    toBcd (10 * tens + units) = BitVec.ofNat 8 (16 * tens + units) := by
  rw [toBcd]
  congr 1
  omega

theorem toBcd_eq_zero_iff {n : Nat} (h : n < 100) : toBcd n = 0#8 ↔ n = 0 := by
  rw [← BitVec.toNat_inj, toBcd, BitVec.toNat_ofNat, BitVec.toNat_ofNat]
  omega

/-- A sum of two decimal digits and a carry is a carry and a decimal digit. -/
theorem exists_carry_digit {n : Nat} (h : n ≤ 19) : ∃ carry digit, carry ≤ 1 ∧ digit ≤ 9 ∧ n = 10 * carry + digit :=
  ⟨n / 10, n % 10, by omega, by omega, by omega⟩

/-- A difference of two decimal digits and a borrow is a borrow and a decimal digit. -/
theorem exists_borrow_digit {n : Int} (h : -10 ≤ n) (h9 : n ≤ 9) :
    ∃ borrow digit : Nat, borrow ≤ 1 ∧ digit ≤ 9 ∧ n = (digit : Int) - 10 * borrow := by
  by_cases hn : n < 0
  · exact ⟨1, (n + 10).toNat, by omega, by omega, by omega⟩
  · exact ⟨0, n.toNat, by omega, by omega, by omega⟩

/-- The adjustment of the low digit (R181) makes its carry worth 16. -/
theorem addDecLow_of_carry_digit {a m : Byte} {c : Bool} {carry digit : Nat} (hc : carry ≤ 1) (hd : digit ≤ 9)
    (h : a.toNat % 16 + m.toNat % 16 + c.toNat = 10 * carry + digit) : addDecLow a m c = 16 * carry + digit := by
  simp only [addDecLow, carryNat_eq_toNat, h]
  obtain rfl | rfl := Nat.le_one_iff_eq_zero_or_eq_one.1 hc <;> split <;> omega

/-- `AddDec` (R181) on decimal digits: the adjustments make each digit's carry worth 16 of that digit. -/
theorem addDec_of_bcd {a m : Byte} (ha : isBcd a = true) (hm : isBcd m = true) (c : Bool) :
    addDec a m c = (toBcd ((bcdValue a + bcdValue m + c.toNat) % 100),
      decide (100 ≤ bcdValue a + bcdValue m + c.toNat)) := by
  obtain ⟨ha1, ha0⟩ := isBcd_iff.1 ha
  obtain ⟨hm1, hm0⟩ := isBcd_iff.1 hm
  have hc := c.toNat_le
  obtain ⟨k, units, hk, hu, low⟩ := exists_carry_digit (n := a.toNat % 16 + m.toNat % 16 + c.toNat) (by omega)
  obtain ⟨j, tens, hj, ht, high⟩ := exists_carry_digit (n := a.toNat / 16 + m.toNat / 16 + k) (by omega)
  have total : bcdValue a + bcdValue m + c.toNat = 100 * j + (10 * tens + units) := by
    unfold bcdValue
    omega
  have digits : (100 * j + (10 * tens + units)) % 100 = 10 * tens + units := by omega
  have sum : a.toNat / 16 * 16 + m.toNat / 16 * 16 + addDecLow a m c = 160 * j + (16 * tens + units) := by
    rw [addDecLow_of_carry_digit hk hu low]
    omega
  rw [addDec, sum, total, digits, toBcd_digits hu]
  clear low high total sum
  refine Prod.ext (BitVec.eq_of_toNat_eq ?_) (decide_eq_decide.2 ?_)
  · simp only [BitVec.toNat_ofNat]
    obtain rfl | rfl := Nat.le_one_iff_eq_zero_or_eq_one.1 hj <;> split <;> omega
  · split <;> omega

/-- `SubDec` (R182) on decimal digits: the adjustments make each digit's borrow worth 16 of that digit. -/
theorem subDec_of_bcd {a m : Byte} (ha : isBcd a = true) (hm : isBcd m = true) (c : Bool) :
    subDec a m c = (toBcd ((100 + bcdValue a - bcdValue m - (1 - c.toNat)) % 100),
      decide (bcdValue m + (1 - c.toNat) ≤ bcdValue a)) := by
  obtain ⟨ha1, ha0⟩ := isBcd_iff.1 ha
  obtain ⟨hm1, hm0⟩ := isBcd_iff.1 hm
  have hc := c.toNat_le
  obtain ⟨k, units, hk, hu, low⟩ := exists_borrow_digit
    (n := ((a.toNat % 16 : Nat) : Int) - (m.toNat % 16 : Nat) + (c.toNat : Nat) - 1) (by omega) (by omega)
  obtain ⟨j, tens, hj, ht, high⟩ := exists_borrow_digit
    (n := ((a.toNat / 16 : Nat) : Int) - (m.toNat / 16 : Nat) - k) (by omega) (by omega)
  have value : (bcdValue a : Int) - bcdValue m + c.toNat - 1 = 10 * tens + units - 100 * j := by
    unfold bcdValue
    omega
  have digits : (100 + bcdValue a - bcdValue m - (1 - c.toNat)) % 100 = 10 * tens + units := by omega
  have difference : (a.toNat : Int) - (m.toNat : Nat) + (c.toNat : Nat) - 1 =
      16 * tens + units + 6 * k - 160 * j := by omega
  simp only [subDec, carryNat_eq_toNat, low, difference, digits, toBcd_digits hu]
  clear low high difference digits
  refine Prod.ext (BitVec.eq_of_toNat_eq ?_) (decide_eq_decide.2 ?_)
  · simp only [BitVec.toNat_ofNat, BitVec.toNat_ofInt]
    clear value
    obtain rfl | rfl := Nat.le_one_iff_eq_zero_or_eq_one.1 hj <;>
      obtain rfl | rfl := Nat.le_one_iff_eq_zero_or_eq_one.1 hk <;> split <;> split <;> omega
  · omega

theorem adcSum_of_bcd {s : State} {m : Byte} (hD : s.D = true) (h : isBcd s.A = true ∧ isBcd m = true) :
    adcSum s m = {
      result := toBcd ((bcdValue s.A + bcdValue m + s.C.toNat) % 100)
      carry := decide (100 ≤ bcdValue s.A + bcdValue m + s.C.toNat)
      overflow := decimalV s.params.decimal .adc s.A m s.C } := by
  simp only [adcSum, hD, h, Bool.and_self, if_true, addDec_of_bcd h.1 h.2]

theorem adcSum_of_not_bcd {s : State} {m : Byte} (hD : s.D = true) (h : ¬(isBcd s.A = true ∧ isBcd m = true)) :
    adcSum s m = {
      result := (decimalNonBcd s.params.decimal .adc s.A m s.C).1
      carry := (decimalNonBcd s.params.decimal .adc s.A m s.C).2
      overflow := decimalV s.params.decimal .adc s.A m s.C } := by
  simp only [adcSum, hD, Bool.and_eq_true, h, if_true, if_false]

theorem sbcSum_of_bcd {s : State} {m : Byte} (hD : s.D = true) (h : isBcd s.A = true ∧ isBcd m = true) :
    sbcSum s m = {
      result := toBcd ((100 + bcdValue s.A - bcdValue m - (1 - s.C.toNat)) % 100)
      carry := decide (bcdValue m + (1 - s.C.toNat) ≤ bcdValue s.A)
      overflow := decimalV s.params.decimal .sbc s.A m s.C } := by
  simp only [sbcSum, hD, h, Bool.and_self, if_true, subDec_of_bcd h.1 h.2]

theorem sbcSum_of_not_bcd {s : State} {m : Byte} (hD : s.D = true) (h : ¬(isBcd s.A = true ∧ isBcd m = true)) :
    sbcSum s m = {
      result := (decimalNonBcd s.params.decimal .sbc s.A m s.C).1
      carry := (decimalNonBcd s.params.decimal .sbc s.A m s.C).2
      overflow := decimalV s.params.decimal .sbc s.A m s.C } := by
  simp only [sbcSum, hD, Bool.and_eq_true, h, if_true, if_false]

/-- Settles O37: every form of ADC is `addWithCarry`, whose sum is `AddDec`'s for decimal digits (`addDec_of_bcd`) and
the parameters' otherwise. -/
theorem adcDecimalIsBcdAddition : Obligations.AdcDecimalIsBcdAddition := by
  intro s v z w hD
  refine readForms_of_map (fun src => bind_pure_eq_map fun m => ?_) rfl rfl
  split
  next h =>
    have small : (bcdValue s.A + bcdValue m + s.C.toNat) % 100 < 100 := Nat.mod_lt _ (by decide)
    simp only [adcSum_of_bcd hD h, setSum_eq, toBcd_eq_zero_iff small]
  next h => rw [adcSum_of_not_bcd hD h, setSum_eq]

/-- Settles O38: every form of SBC is `subWithBorrow`, whose sum is `SubDec`'s for decimal digits (`subDec_of_bcd`) and
the parameters' otherwise. -/
theorem sbcDecimalIsBcdSubtraction : Obligations.SbcDecimalIsBcdSubtraction := by
  intro s v z w hD
  refine readForms_of_map (fun src => bind_pure_eq_map fun m => ?_) rfl rfl
  split
  next h =>
    have small : (100 + bcdValue s.A - bcdValue m - (1 - s.C.toNat)) % 100 < 100 := Nat.mod_lt _ (by decide)
    simp only [sbcSum_of_bcd hD h, setSum_eq, toBcd_eq_zero_iff small]
  next h => rw [sbcSum_of_not_bcd hD h, setSum_eq]

end Sys2Proof.Machine
end

section
/-! The frame of every instruction (10_state.md sections 2 to 4): a shape of instruction keeps what a table entry does
not name if its parts do, and every instruction has such a shape for its own entry. -/

namespace Sys2Proof.Machine

section Frame

variable {w : Writes} {s t : State}

theorem KeepsTheRest.refl : KeepsTheRest w s s := by simp [KeepsTheRest]

theorem KeepsTheRest.setBus (hw : w.mem = true) (h : KeepsTheRest w s t) (n : AddressSpace) :
    KeepsTheRest w s { t with bus := n } := by
  simpa [KeepsTheRest, hw] using h

theorem KeepsTheRest.setSP (hw : w.SP = true) (h : KeepsTheRest w s t) (b : Byte) :
    KeepsTheRest w s { t with SP := b } := by
  simpa [KeepsTheRest, hw] using h

theorem KeepsTheRest.setPC (h : KeepsTheRest w s t) (pc : Word) : KeepsTheRest w s { t with PC := pc } := h

end Frame

/-- The parts of a shape write only what the table entry names; and the shapes that store are those of the entries that
name memory. -/
def Action.Within (w : Writes) : Action → Prop
  | .update f => w.mem = false ∧ ∀ s, KeepsTheRest w s (f s)
  | .read _ f => w.mem = false ∧ ∀ m s, KeepsTheRest w s (f m s)
  | .store _ _ => w.mem = true
  | .modify .acc result flags => w.mem = false ∧ ∀ s, KeepsTheRest w s { flags s.A s with A := result s.A s }
  | .modify (.mem _) _ flags => w.mem = true ∧ (∀ m s, KeepsTheRest w s (flags m s)) ∧ ∀ m s, (flags m s).bus = s.bus
  | .push _ => w.mem = true ∧ w.SP = true
  | .pull f => w.mem = false ∧ ∀ m s sp, KeepsTheRest w s (f m { s with SP := sp })
  | .jump _ => w.mem = false
  | .jsr _ => w.mem = true ∧ w.SP = true
  | .rts => w.mem = false ∧ w.SP = true
  | .rti => w = writesOf .rti
  | .brk => w = writesOf (.brk 0#8)

/-- A shape within a table entry leaves the rest of the state as it was, and makes at least one write if the entry
names memory. -/
theorem Action.run_within {a : Action} {w : Writes} (h : a.Within w) {s t : State} (run : a.run s = .next t) :
    KeepsTheRest w s t ∧ (w.mem = true → ∃ first rest, Written (first :: rest) s.bus t.bus) := by
  have none : w.mem = false → w.mem = true → ∃ first rest, Written (first :: rest) s.bus t.bus :=
    fun h0 h1 => absurd (h0.symm.trans h1) Bool.false_ne_true
  cases a with
  | update f =>
    obtain ⟨hm, keeps⟩ := h
    cases run
    exact ⟨keeps s, none hm⟩
  | read src f =>
    obtain ⟨hm, keeps⟩ := h
    obtain ⟨m, -, e⟩ := bind_eq_ok.1 (answer_eq_next.1 run)
    cases e
    exact ⟨keeps m s, none hm⟩
  | store m v =>
    obtain ⟨a, n, -, hw, rfl⟩ := writeMem_eq_ok.1 (answer_eq_next.1 run)
    exact ⟨KeepsTheRest.refl.setBus h n, fun _ => ⟨a, [], .one hw⟩⟩
  | modify dst result flags =>
    have e := answer_eq_next.1 run
    cases dst with
    | acc =>
      obtain ⟨hm, keeps⟩ := h
      cases e
      exact ⟨keeps s, none hm⟩
    | mem m =>
      obtain ⟨hm, keeps, bus⟩ := h
      obtain ⟨a, b, n, -, -, hw, rfl⟩ := (rmw_mem_eq_ok (bus · s)).1 e
      exact ⟨(keeps b s).setBus hm n, fun _ => ⟨a, [], .one hw⟩⟩
  | push v =>
    obtain ⟨hm, hsp⟩ := h
    have written := push_written (answer_eq_next.1 run)
    obtain ⟨n, -, rfl⟩ := push_eq_ok.1 (answer_eq_next.1 run)
    exact ⟨(KeepsTheRest.refl.setBus hm n).setSP hsp _, fun _ => ⟨_, _, written⟩⟩
  | pull f =>
    obtain ⟨hm, keeps⟩ := h
    obtain ⟨p, hp, e⟩ := bind_eq_ok.1 (answer_eq_next.1 run)
    obtain ⟨b, -, rfl⟩ := pull_eq_ok.1 hp
    cases e
    exact ⟨keeps b s _, none hm⟩
  | jump m =>
    obtain ⟨target, -, e⟩ := bind_eq_ok.1 (answer_eq_next.1 run)
    cases e
    exact ⟨KeepsTheRest.refl.setPC target, none h⟩
  | jsr target =>
    obtain ⟨hm, hsp⟩ := h
    obtain ⟨u, hu, e⟩ := bind_eq_ok.1 (answer_eq_next.1 run)
    have written := pushWord_written hu
    obtain ⟨m, n, -, -, rfl⟩ := pushWord_eq_ok.1 hu
    cases e
    exact ⟨((KeepsTheRest.refl.setBus hm n).setSP hsp _).setPC target, fun _ => ⟨_, _, written⟩⟩
  | rts =>
    obtain ⟨hm, hsp⟩ := h
    obtain ⟨p, hp, e⟩ := bind_eq_ok.1 (answer_eq_next.1 run)
    obtain ⟨lo, hi, -, -, rfl⟩ := pullWord_eq_ok.1 hp
    cases e
    exact ⟨(KeepsTheRest.refl.setSP hsp _).setPC _, none hm⟩
  | rti =>
    obtain rfl : w = writesOf .rti := h
    obtain ⟨p, hp, e⟩ := bind_eq_ok.1 (answer_eq_next.1 run)
    obtain ⟨b, -, rfl⟩ := pull_eq_ok.1 hp
    obtain ⟨q, hq, e⟩ := bind_eq_ok.1 e
    obtain ⟨lo, hi, -, -, rfl⟩ := pullWord_eq_ok.1 hq
    cases e
    exact ⟨by simp [KeepsTheRest, writesOf], none rfl⟩
  | brk =>
    obtain rfl : w = writesOf (.brk 0#8) := h
    have written := enterVector_written (answer_eq_next.1 run)
    obtain ⟨b1, b2, b3, lo, hi, -, -, -, -, -, rfl⟩ := enterVector_eq_ok.1 (answer_eq_next.1 run)
    exact ⟨by simp [KeepsTheRest, writesOf], fun _ => ⟨_, _, written⟩⟩

/-- The meaning has a shape that keeps within the table entry. -/
def Keeping (w : Writes) (f : State → StepOutcome) : Prop := ∃ a : Action, a.Within w ∧ ∀ s, f s = a.run s

section Keeping

variable {w : Writes}

theorem keeping_update {f : State → State} (hm : w.mem = false) (h : ∀ s, KeepsTheRest w s (f s)) :
    Keeping w fun s => .next (f s) :=
  ⟨.update f, ⟨hm, h⟩, fun _ => rfl⟩

theorem keeping_read {f : Byte → State → State} (src : Src) (hm : w.mem = false)
    (h : ∀ m s, KeepsTheRest w s (f m s)) :
    Keeping w fun s => answer (do
      let m ← readSrc src s
      return f m s) :=
  ⟨.read src f, ⟨hm, h⟩, fun _ => rfl⟩

theorem keeping_store (m : MemMode) (v : State → Byte) : Keeping { mem := true } fun s => answer (writeMem m (v s) s) :=
  ⟨.store m v, rfl, fun _ => rfl⟩

theorem keeping_rmw_acc {result : Byte → State → Byte} {flags : Byte → State → State} (hm : w.mem = false)
    (h : ∀ s, KeepsTheRest w s { flags s.A s with A := result s.A s }) :
    Keeping w fun s => answer (rmw result flags .acc s) :=
  ⟨.modify .acc result flags, ⟨hm, h⟩, fun _ => rfl⟩

theorem keeping_rmw_mem {result : Byte → State → Byte} {flags : Byte → State → State} (m : MemMode)
    (hm : w.mem = true) (h : ∀ b s, KeepsTheRest w s (flags b s)) (bus : ∀ b s, (flags b s).bus = s.bus) :
    Keeping w fun s => answer (rmw result flags (.mem m) s) :=
  ⟨.modify (.mem m) result flags, ⟨hm, h, bus⟩, fun _ => rfl⟩

theorem keeping_push (v : State → Byte) : Keeping { SP := true, mem := true } fun s => answer (push (v s) s) :=
  ⟨.push v, ⟨rfl, rfl⟩, fun _ => rfl⟩

theorem keeping_pull {f : Byte → State → State} (hm : w.mem = false)
    (h : ∀ m s sp, KeepsTheRest w s (f m { s with SP := sp })) :
    Keeping w fun s => answer (do
      let (b, t) ← pull s
      return f b t) :=
  ⟨.pull f, ⟨hm, h⟩, fun _ => rfl⟩

theorem keeping_jumpTo (m : MemMode) : Keeping {} fun s => answer (jumpTo m s) :=
  ⟨.jump m, rfl, fun _ => rfl⟩

/-! Each operation, with its entry of the table. -/

theorem keeping_branchIf (c : State → Bool) (r : Byte) : Keeping {} fun s => .next (branchIf (c s) r s) :=
  keeping_update rfl fun s => by
    unfold branchIf
    split
    · exact KeepsTheRest.refl.setPC _
    · exact .refl

theorem keeping_branchOnBit (n : Nat) (want : Bool) (z r : Byte) :
    Keeping {} fun s => answer (branchOnBit n want z r s) :=
  keeping_read (.mem (.zeroPage z)) rfl fun m s => by
    unfold branchIf
    split
    · exact KeepsTheRest.refl.setPC _
    · exact .refl

theorem keeping_loadA (src : Src) : Keeping { A := true, N := true, Z := true } fun s => answer (loadA src s) :=
  keeping_read src rfl fun _ _ => by simp [KeepsTheRest]

theorem keeping_loadX (src : Src) : Keeping { X := true, N := true, Z := true } fun s => answer (loadX src s) :=
  keeping_read src rfl fun _ _ => by simp [KeepsTheRest]

theorem keeping_loadY (src : Src) : Keeping { Y := true, N := true, Z := true } fun s => answer (loadY src s) :=
  keeping_read src rfl fun _ _ => by simp [KeepsTheRest]

theorem keeping_andA (src : Src) : Keeping { A := true, N := true, Z := true } fun s => answer (andA src s) :=
  keeping_read src rfl fun _ _ => by simp [KeepsTheRest]

theorem keeping_orA (src : Src) : Keeping { A := true, N := true, Z := true } fun s => answer (orA src s) :=
  keeping_read src rfl fun _ _ => by simp [KeepsTheRest]

theorem keeping_eorA (src : Src) : Keeping { A := true, N := true, Z := true } fun s => answer (eorA src s) :=
  keeping_read src rfl fun _ _ => by simp [KeepsTheRest]

theorem keeping_addWithCarry (src : Src) :
    Keeping { A := true, N := true, V := true, Z := true, C := true } fun s => answer (addWithCarry src s) :=
  keeping_read src rfl fun _ _ => by simp [KeepsTheRest]

theorem keeping_subWithBorrow (src : Src) :
    Keeping { A := true, N := true, V := true, Z := true, C := true } fun s => answer (subWithBorrow src s) :=
  keeping_read src rfl fun _ _ => by simp [KeepsTheRest]

theorem keeping_compareWith (reg : State → Byte) (src : Src) :
    Keeping { N := true, Z := true, C := true } fun s => answer (compareWith (reg s) src s) :=
  keeping_read src (f := fun m s => compareFlags (reg s) m s) rfl fun _ _ => by simp [KeepsTheRest]

theorem keeping_bitTest (mode : MemMode) :
    Keeping { N := true, V := true, Z := true } fun s => answer (bitTest mode s) :=
  keeping_read (.mem mode) rfl fun _ _ => by simp [KeepsTheRest]

theorem keeping_bitTestImmediate (v : Byte) : Keeping { Z := true } fun s => answer (bitTestImmediate v s) :=
  keeping_read (.imm v) rfl fun _ _ => by simp [KeepsTheRest]

/-- A shift or rotate of A, and of a memory byte. -/
theorem keeping_shift_acc (result : Byte → State → Byte) (carry : Byte → Bool) :
    Keeping { A := true, N := true, Z := true, C := true } fun s =>
      answer (rmw result (fun m t => shiftFlags (result m t) (carry m) t) .acc s) :=
  keeping_rmw_acc rfl fun _ => by simp [KeepsTheRest]

theorem keeping_shift_mem (result : Byte → State → Byte) (carry : Byte → Bool) (m : MemMode) :
    Keeping { N := true, Z := true, C := true, mem := true } fun s =>
      answer (rmw result (fun m t => shiftFlags (result m t) (carry m) t) (.mem m) s) :=
  keeping_rmw_mem m rfl (fun _ _ => by simp [KeepsTheRest]) fun _ _ => rfl

/-- An increment or decrement of A, and of a memory byte. -/
theorem keeping_count_acc (result : Byte → Byte) :
    Keeping { A := true, N := true, Z := true } fun s =>
      answer (rmw (fun m _ => result m) (fun m t => setNZ (result m) t) .acc s) :=
  keeping_rmw_acc rfl fun _ => by simp [KeepsTheRest]

theorem keeping_count_mem (result : Byte → Byte) (m : MemMode) :
    Keeping { N := true, Z := true, mem := true } fun s =>
      answer (rmw (fun m _ => result m) (fun m t => setNZ (result m) t) (.mem m) s) :=
  keeping_rmw_mem m rfl (fun _ _ => by simp [KeepsTheRest]) fun _ _ => rfl

/-- TSB and TRB. -/
theorem keeping_testAnd (result : Byte → State → Byte) (m : MemMode) :
    Keeping { Z := true, mem := true } fun s => answer (rmw result testFlags (.mem m) s) :=
  keeping_rmw_mem m rfl (fun _ _ => by simp [KeepsTheRest]) fun _ _ => rfl

/-- RMB and SMB. -/
theorem keeping_changeBit (result : Byte → State → Byte) (z : Byte) :
    Keeping { mem := true } fun s => answer (rmw result (fun _ t => t) (.mem (.zeroPage z)) s) :=
  keeping_rmw_mem (.zeroPage z) rfl (fun _ _ => .refl) fun _ _ => rfl

theorem keeping_pullA : Keeping { A := true, SP := true, N := true, Z := true } fun s => answer (pullA s) :=
  keeping_pull (f := fun b t => setNZ b { t with A := b }) rfl fun _ _ _ => by simp [KeepsTheRest]

theorem keeping_pullX : Keeping { X := true, SP := true, N := true, Z := true } fun s => answer (pullX s) :=
  keeping_pull (f := fun b t => setNZ b { t with X := b }) rfl fun _ _ _ => by simp [KeepsTheRest]

theorem keeping_pullY : Keeping { Y := true, SP := true, N := true, Z := true } fun s => answer (pullY s) :=
  keeping_pull (f := fun b t => setNZ b { t with Y := b }) rfl fun _ _ _ => by simp [KeepsTheRest]

theorem keeping_pullFlags :
    Keeping { SP := true, N := true, V := true, D := true, I := true, Z := true, C := true } fun s =>
      answer (pullFlags s) :=
  keeping_pull (f := loadFlags) rfl fun _ _ _ => by simp [KeepsTheRest]

end Keeping

/-- Every instruction has a shape that keeps within its own entry of the table. -/
theorem exec_keeping (i : Instr) : Keeping (writesOf i) (exec i) := by
  match i with
  | .ldaIndX _ | .ldaZp _ | .ldaAbs _ | .ldaIndY _ | .ldaZpInd _ | .ldaZpX _ | .ldaAbsY _ | .ldaAbsX _ =>
    exact keeping_loadA _
  | .ldaImm v => exact keeping_loadA (.imm v)
  | .ldxZp _ | .ldxAbs _ | .ldxZpY _ | .ldxAbsY _ => exact keeping_loadX _
  | .ldxImm v => exact keeping_loadX (.imm v)
  | .ldyZp _ | .ldyAbs _ | .ldyZpX _ | .ldyAbsX _ => exact keeping_loadY _
  | .ldyImm v => exact keeping_loadY (.imm v)
  | .adcIndX _ | .adcZp _ | .adcAbs _ | .adcIndY _ | .adcZpInd _ | .adcZpX _ | .adcAbsY _ | .adcAbsX _ =>
    exact keeping_addWithCarry _
  | .adcImm v => exact keeping_addWithCarry (.imm v)
  | .sbcIndX _ | .sbcZp _ | .sbcAbs _ | .sbcIndY _ | .sbcZpInd _ | .sbcZpX _ | .sbcAbsY _ | .sbcAbsX _ =>
    exact keeping_subWithBorrow _
  | .sbcImm v => exact keeping_subWithBorrow (.imm v)
  | .andIndX _ | .andZp _ | .andAbs _ | .andIndY _ | .andZpInd _ | .andZpX _ | .andAbsY _ | .andAbsX _ =>
    exact keeping_andA _
  | .andImm v => exact keeping_andA (.imm v)
  | .oraIndX _ | .oraZp _ | .oraAbs _ | .oraIndY _ | .oraZpInd _ | .oraZpX _ | .oraAbsY _ | .oraAbsX _ =>
    exact keeping_orA _
  | .oraImm v => exact keeping_orA (.imm v)
  | .eorIndX _ | .eorZp _ | .eorAbs _ | .eorIndY _ | .eorZpInd _ | .eorZpX _ | .eorAbsY _ | .eorAbsX _ =>
    exact keeping_eorA _
  | .eorImm v => exact keeping_eorA (.imm v)
  | .cmpIndX _ | .cmpZp _ | .cmpAbs _ | .cmpIndY _ | .cmpZpInd _ | .cmpZpX _ | .cmpAbsY _ | .cmpAbsX _ =>
    exact keeping_compareWith (·.A) _
  | .cmpImm v => exact keeping_compareWith (·.A) (.imm v)
  | .cpxZp _ | .cpxAbs _ => exact keeping_compareWith (·.X) _
  | .cpxImm v => exact keeping_compareWith (·.X) (.imm v)
  | .cpyZp _ | .cpyAbs _ => exact keeping_compareWith (·.Y) _
  | .cpyImm v => exact keeping_compareWith (·.Y) (.imm v)
  | .bitZp _ | .bitAbs _ | .bitZpX _ | .bitAbsX _ => exact keeping_bitTest _
  | .bitImm _ => exact keeping_bitTestImmediate _
  | .staIndX _ | .staZp _ | .staAbs _ | .staIndY _ | .staZpInd _ | .staZpX _ | .staAbsY _ | .staAbsX _ =>
    exact keeping_store _ (fun s => s.A)
  | .stxZp _ | .stxAbs _ | .stxZpY _ => exact keeping_store _ (fun s => s.X)
  | .styZp _ | .styAbs _ | .styZpX _ => exact keeping_store _ (fun s => s.Y)
  | .stzZp _ | .stzZpX _ | .stzAbs _ | .stzAbsX _ => exact keeping_store _ (fun _ => 0x00#8)
  | .aslZp _ | .aslAbs _ | .aslZpX _ | .aslAbsX _ | .lsrZp _ | .lsrAbs _ | .lsrZpX _ | .lsrAbsX _ | .rolZp _
  | .rolAbs _ | .rolZpX _ | .rolAbsX _ | .rorZp _ | .rorAbs _ | .rorZpX _ | .rorAbsX _ =>
    exact keeping_shift_mem _ _ _
  | .aslAcc => exact keeping_shift_acc (fun m _ => m <<< 1) (·.getLsbD 7)
  | .lsrAcc => exact keeping_shift_acc (fun m _ => m >>> 1) (·.getLsbD 0)
  | .rolAcc => exact keeping_shift_acc (fun m t => m <<< 1 ||| bitAt 0 t.C) (·.getLsbD 7)
  | .rorAcc => exact keeping_shift_acc (fun m t => m >>> 1 ||| bitAt 7 t.C) (·.getLsbD 0)
  | .incZp _ | .incAbs _ | .incZpX _ | .incAbsX _ | .decZp _ | .decAbs _ | .decZpX _ | .decAbsX _ =>
    exact keeping_count_mem _ _
  | .incAcc => exact keeping_count_acc (· + 1#8)
  | .decAcc => exact keeping_count_acc (· - 1#8)
  | .tsbZp _ | .tsbAbs _ | .trbZp _ | .trbAbs _ => exact keeping_testAnd _ _
  | .rmb0 _ | .rmb1 _ | .rmb2 _ | .rmb3 _ | .rmb4 _ | .rmb5 _ | .rmb6 _ | .rmb7 _ | .smb0 _ | .smb1 _ | .smb2 _
  | .smb3 _ | .smb4 _ | .smb5 _ | .smb6 _ | .smb7 _ => exact keeping_changeBit _ _
  | .pha => exact keeping_push (fun s => s.A)
  | .phx => exact keeping_push (fun s => s.X)
  | .phy => exact keeping_push (fun s => s.Y)
  | .php => exact keeping_push (fun s => pImage true s)
  | .pla => exact keeping_pullA
  | .plx => exact keeping_pullX
  | .ply => exact keeping_pullY
  | .plp => exact keeping_pullFlags
  | .bbr0 _ _ | .bbr1 _ _ | .bbr2 _ _ | .bbr3 _ _ | .bbr4 _ _ | .bbr5 _ _ | .bbr6 _ _ | .bbr7 _ _ | .bbs0 _ _
  | .bbs1 _ _ | .bbs2 _ _ | .bbs3 _ _ | .bbs4 _ _ | .bbs5 _ _ | .bbs6 _ _ | .bbs7 _ _ =>
    exact keeping_branchOnBit _ _ _ _
  | .bpl _ => exact keeping_branchIf (fun s => !s.N) _
  | .bmi _ => exact keeping_branchIf (fun s => s.N) _
  | .bvc _ => exact keeping_branchIf (fun s => !s.V) _
  | .bvs _ => exact keeping_branchIf (fun s => s.V) _
  | .bcc _ => exact keeping_branchIf (fun s => !s.C) _
  | .bcs _ => exact keeping_branchIf (fun s => s.C) _
  | .bne _ => exact keeping_branchIf (fun s => !s.Z) _
  | .beq _ => exact keeping_branchIf (fun s => s.Z) _
  | .bra _ => exact keeping_branchIf (fun _ => true) _
  | .jmpAbs w => exact keeping_jumpTo (.absolute w)
  | .jmpInd w => exact keeping_jumpTo (.indirect w)
  | .jmpAbsIndX w => exact keeping_jumpTo (.absoluteIndexedIndirect w)
  | .jsr _ => exact ⟨.jsr _, ⟨rfl, rfl⟩, fun _ => rfl⟩
  | .rts => exact ⟨.rts, ⟨rfl, rfl⟩, fun _ => rfl⟩
  | .brk _ => exact ⟨.brk, rfl, fun _ => rfl⟩
  | .nopImm02 _ | .nopImp03 | .nopImp0B | .nopImp13 | .clc | .nopImp1B | .nopImm22 _ | .nopImp23 | .nopImp2B
  | .nopImp33 | .sec | .nopImp3B | .nopImm42 _ | .nopImp43 | .nopZp44 _ | .nopImp4B | .nopImp53 | .nopZpX54 _
  | .cli | .nopImp5B | .nopAbs5C _ | .nopImm62 _ | .nopImp63 | .nopImp6B | .nopImp73 | .sei | .nopImp7B
  | .nopImm82 _ | .nopImp83 | .dey | .txa | .nopImp8B | .nopImp93 | .tya | .txs | .nopImp9B | .nopImpA3 | .tay
  | .tax | .nopImpAB | .nopImpB3 | .clv | .tsx | .nopImpBB | .nopImmC2 _ | .nopImpC3 | .iny | .dex | .wai
  | .nopImpD3 | .nopZpXD4 _ | .cld | .stp | .nopAbsDC _ | .nopImmE2 _ | .nopImpE3 | .inx | .nop | .nopImpEB
  | .nopImpF3 | .nopZpXF4 _ | .sed | .nopImpFB | .nopAbsFC _ =>
    exact keeping_update rfl fun _ => by simp [KeepsTheRest, writesOf]
  | .rti => exact ⟨.rti, rfl, fun _ => rfl⟩

/-- Settles O24: `exec_keeping` and `Action.run_within`. -/
theorem instructionsKeepWhatTheirTableDoesNotWrite : Obligations.InstructionsKeepWhatTheirTableDoesNotWrite := by
  intro i s t h
  obtain ⟨a, within, run⟩ := exec_keeping i
  exact (Action.run_within within ((run s).symm.trans h)).1

end Sys2Proof.Machine
end

section
/-! Stores and read-modify-write instructions (41_load_store.md Stores, 43_rmw.md). -/

namespace Sys2Proof.Machine

open Sys2Proof.Statements

/-! ### Stores (R163 to R166) -/

/-- Settles O32: every form of a store is `writeMem` of its register's byte in that form's mode. -/
theorem storesWriteTheirRegister : Obligations.StoresWriteTheirRegister := by
  intro s z w p hp
  have runs : exec p.1 s = answer (writeMem p.2.1 p.2.2 s) := by fin_cases hp <;> rfl
  rw [runs]
  refine ⟨fun a b ha hb => ?_, fun a r ha hr => ?_, fun f hf => ?_⟩
  · rw [writeMem_ok ha hb, answer_ok]
  · rw [writeMem_error ha hr, answer_error]
  · rw [writeMem_error_ea hf, answer_error]

/-! ### One read-modify-write, in memory and on A -/

section Rmw

variable {s : State} {r : Byte → State → Byte} {g : Byte → State → State}

theorem rmw_congr {r' : Byte → State → Byte} {g' : Byte → State → State} (hr : ∀ m t, r m t = r' m t)
    (hg : ∀ m t, g m t = g' m t) (dst : Dst) (s : State) : rmw r g dst s = rmw r' g' dst s := by
  obtain rfl : r = r' := funext fun m => funext (hr m)
  obtain rfl : g = g' := funext fun m => funext (hg m)
  rfl

/-- Memory forms of an operation that is a read-modify-write. -/
theorem rmwForms_of_rmw {op : MemMode → State → Except Fault State} {forms : List (Instr × MemMode)}
    (h : ∀ m, op m s = rmw r g (.mem m) s) (bus : ∀ m, (g m s).bus = s.bus)
    (runs : forms.map (fun p => exec p.1 s) = forms.map fun p => answer (op p.2 s)) :
    RmwForms forms s (fun m => r m s) (fun m => g m s) := by
  intro p hp
  rw [List.map_inj_left.1 runs p hp, h]
  refine ⟨fun a m b ha hm hb => ?_, fun f hf => ?_, fun a q ha hq => ?_, fun a m q ha hm hq => ?_⟩
  · rw [rmw_mem_ok (bus m) ha hm hb, answer_ok]
  · rw [rmw_mem_error_ea hf, answer_error]
  · rw [rmw_mem_error_read ha hq, answer_error]
  · rw [rmw_mem_error_write (bus m) ha hm hq, answer_error]

/-- The form on A of such an operation. -/
theorem exec_acc_of_rmw {op : Dst → State → Except Fault State} {i : Instr} (h : op .acc s = rmw r g .acc s)
    (runs : exec i s = answer (op .acc s)) : exec i s = .next { g s.A s with A := r s.A s } := by
  rw [runs, h, rmw_acc, answer_ok]

end Rmw

/-! ### Shifts and rotates (R201 to R204) -/

theorem byte_shiftLeft (m : Byte) : m <<< 1 = BitVec.ofNat 8 (m.toNat * 2) := by
  apply BitVec.eq_of_toNat_eq
  rw [BitVec.toNat_shiftLeft, BitVec.toNat_ofNat, Nat.shiftLeft_eq]

theorem byte_shiftRight (m : Byte) : m >>> 1 = BitVec.ofNat 8 (m.toNat / 2) := by
  have := m.isLt
  apply BitVec.eq_of_toNat_eq
  rw [BitVec.toNat_ushiftRight, BitVec.toNat_ofNat, Nat.shiftRight_eq_div_pow]
  omega

theorem bitAt_zero_eq (c : Bool) : bitAt 0 c = BitVec.ofNat 8 c.toNat := by cases c <;> rfl

theorem bitAt_seven_eq (c : Bool) : bitAt 7 c = BitVec.ofNat 8 (c.toNat * 128) := by cases c <;> rfl

/-- A shifted byte has no bit where the carry enters, so the carry is added. -/
theorem byte_rotateLeft (m : Byte) (c : Bool) :
    m <<< 1 ||| bitAt 0 c = BitVec.ofNat 8 (m.toNat * 2 + c.toNat) := by
  have disjoint : m <<< 1 &&& bitAt 0 c = 0#8 := by
    ext k hk
    cases k <;> simp
  rw [← BitVec.add_eq_or_of_and_eq_zero _ _ disjoint, byte_shiftLeft, bitAt_zero_eq, ← BitVec.ofNat_add]

theorem byte_rotateRight (m : Byte) (c : Bool) :
    m >>> 1 ||| bitAt 7 c = BitVec.ofNat 8 (m.toNat / 2 + c.toNat * 128) := by
  have disjoint : m >>> 1 &&& bitAt 7 c = 0#8 := by
    ext k hk
    by_cases h7 : k = 7
    · simp [h7]
    · simp [Ne.symm h7]
  rw [← BitVec.add_eq_or_of_and_eq_zero _ _ disjoint, byte_shiftRight, bitAt_seven_eq, ← BitVec.ofNat_add]

theorem bit7_eq_decide (m : Byte) : m.getLsbD 7 = decide (128 ≤ m.toNat) := by
  rw [← msb_eq_bit7, msb_eq_decide_128]

theorem bit0_eq_decide (m : Byte) : m.getLsbD 0 = decide (m.toNat % 2 = 1) := by
  rw [BitVec.getLsbD, Nat.testBit_zero]

/-- The flags of a shift, with the result and the carry in numbers. -/
theorem shiftFlags_eq {r r' : Byte} {c c' : Bool} (hr : r = r') (hc : c = c') (s : State) :
    shiftFlags r c s = { s with N := r'.getLsbD 7, Z := decide (r' = 0#8), C := c' } := by
  rw [hr, hc, shiftFlags, setNZ_eq]

theorem shiftLeft_eq (dst : Dst) (s : State) : shiftLeft dst s = rmw
    (fun m _ => BitVec.ofNat 8 (m.toNat * 2))
    (fun m t => { t with
      N := (BitVec.ofNat 8 (m.toNat * 2)).getLsbD 7,
      Z := decide (BitVec.ofNat 8 (m.toNat * 2) = 0#8),
      C := decide (128 ≤ m.toNat) }) dst s :=
  rmw_congr (fun m _ => byte_shiftLeft m) (fun m t => shiftFlags_eq (byte_shiftLeft m) (bit7_eq_decide m) t) dst s

theorem shiftRight_eq (dst : Dst) (s : State) : shiftRight dst s = rmw
    (fun m _ => BitVec.ofNat 8 (m.toNat / 2))
    (fun m t => { t with
      N := (BitVec.ofNat 8 (m.toNat / 2)).getLsbD 7,
      Z := decide (BitVec.ofNat 8 (m.toNat / 2) = 0#8),
      C := decide (m.toNat % 2 = 1) }) dst s :=
  rmw_congr (fun m _ => byte_shiftRight m) (fun m t => shiftFlags_eq (byte_shiftRight m) (bit0_eq_decide m) t) dst s

theorem rotateLeft_eq (dst : Dst) (s : State) : rotateLeft dst s = rmw
    (fun m t => BitVec.ofNat 8 (m.toNat * 2 + t.C.toNat))
    (fun m t => { t with
      N := (BitVec.ofNat 8 (m.toNat * 2 + t.C.toNat)).getLsbD 7,
      Z := decide (BitVec.ofNat 8 (m.toNat * 2 + t.C.toNat) = 0#8),
      C := decide (128 ≤ m.toNat) }) dst s :=
  rmw_congr (fun m t => byte_rotateLeft m t.C)
    (fun m t => shiftFlags_eq (byte_rotateLeft m t.C) (bit7_eq_decide m) t) dst s

theorem rotateRight_eq (dst : Dst) (s : State) : rotateRight dst s = rmw
    (fun m t => BitVec.ofNat 8 (m.toNat / 2 + t.C.toNat * 128))
    (fun m t => { t with
      N := (BitVec.ofNat 8 (m.toNat / 2 + t.C.toNat * 128)).getLsbD 7,
      Z := decide (BitVec.ofNat 8 (m.toNat / 2 + t.C.toNat * 128) = 0#8),
      C := decide (m.toNat % 2 = 1) }) dst s :=
  rmw_congr (fun m t => byte_rotateRight m t.C)
    (fun m t => shiftFlags_eq (byte_rotateRight m t.C) (bit0_eq_decide m) t) dst s

/-- Settles O42: every form is its operation on A or on that form's mode. -/
theorem shiftsAndRotatesMoveOneBit : Obligations.ShiftsAndRotatesMoveOneBit := by
  intro s z w
  exact ⟨rmwForms_of_rmw (fun m => shiftLeft_eq (.mem m) s) (fun _ => rfl) rfl,
    exec_acc_of_rmw (shiftLeft_eq .acc s) rfl,
    rmwForms_of_rmw (fun m => shiftRight_eq (.mem m) s) (fun _ => rfl) rfl,
    exec_acc_of_rmw (shiftRight_eq .acc s) rfl,
    rmwForms_of_rmw (fun m => rotateLeft_eq (.mem m) s) (fun _ => rfl) rfl,
    exec_acc_of_rmw (rotateLeft_eq .acc s) rfl,
    rmwForms_of_rmw (fun m => rotateRight_eq (.mem m) s) (fun _ => rfl) rfl,
    exec_acc_of_rmw (rotateRight_eq .acc s) rfl⟩

/-! ### Increments and decrements (R205 to R210) -/

theorem setNZ_of_eq {v v' : Byte} (h : v = v') (s : State) :
    setNZ v s = { s with N := v'.getLsbD 7, Z := decide (v' = 0#8) } := by
  rw [h, setNZ_eq]

theorem increment_eq (dst : Dst) (s : State) : increment dst s = rmw
    (fun m _ => BitVec.ofNat 8 (m.toNat + 1))
    (fun m t => { t with
      N := (BitVec.ofNat 8 (m.toNat + 1)).getLsbD 7,
      Z := decide (BitVec.ofNat 8 (m.toNat + 1) = 0#8) }) dst s :=
  rmw_congr (fun m _ => add_one_eq_ofNat m) (fun m t => setNZ_of_eq (add_one_eq_ofNat m) t) dst s

theorem decrement_eq (dst : Dst) (s : State) : decrement dst s = rmw
    (fun m _ => BitVec.ofNat 8 (m.toNat + 255))
    (fun m t => { t with
      N := (BitVec.ofNat 8 (m.toNat + 255)).getLsbD 7,
      Z := decide (BitVec.ofNat 8 (m.toNat + 255) = 0#8) }) dst s :=
  rmw_congr (fun m _ => sub_one_eq_ofNat m) (fun m t => setNZ_of_eq (sub_one_eq_ofNat m) t) dst s

theorem exec_inx (s : State) : exec .inx s = .next (setNZ (s.X + 1#8) { s with X := s.X + 1#8 }) := rfl
theorem exec_iny (s : State) : exec .iny s = .next (setNZ (s.Y + 1#8) { s with Y := s.Y + 1#8 }) := rfl
theorem exec_dex (s : State) : exec .dex s = .next (setNZ (s.X - 1#8) { s with X := s.X - 1#8 }) := rfl
theorem exec_dey (s : State) : exec .dey s = .next (setNZ (s.Y - 1#8) { s with Y := s.Y - 1#8 }) := rfl

/-- Settles O43: every form of INC and DEC is its operation, as in O42; INX to DEY write an index register. -/
theorem incrementsAndDecrementsWrap : Obligations.IncrementsAndDecrementsWrap := by
  intro s z w
  refine ⟨rmwForms_of_rmw (fun m => increment_eq (.mem m) s) (fun _ => rfl) rfl,
    exec_acc_of_rmw (increment_eq .acc s) rfl,
    rmwForms_of_rmw (fun m => decrement_eq (.mem m) s) (fun _ => rfl) rfl,
    exec_acc_of_rmw (decrement_eq .acc s) rfl, ?_, ?_, ?_, ?_⟩
  · rw [exec_inx, add_one_eq_ofNat, setNZ_eq]
  · rw [exec_iny, add_one_eq_ofNat, setNZ_eq]
  · rw [exec_dex, sub_one_eq_ofNat, setNZ_eq]
  · rw [exec_dey, sub_one_eq_ofNat, setNZ_eq]

/-! ### Bits of memory (R211 to R228) -/

/-- The byte with bit `n` made `b`. -/
def withBit (n : Nat) (b : Bool) (m : Byte) : Byte :=
  match b with
  | true => m ||| bitAt n true
  | false => m &&& ~~~bitAt n true

theorem getLsbD_withBit (n : Nat) (b : Bool) (m : Byte) (k : Nat) (hk : k < 8) :
    (withBit n b m).getLsbD k = if k = n then b else m.getLsbD k := by
  cases b <;> by_cases h : n = k <;> simp [withBit, hk, h, eq_comm]

theorem testAndSet_eq (mode : MemMode) (s : State) : testAndSet mode s =
    rmw (fun m t => m ||| t.A) (fun m t => { t with Z := decide (t.A &&& m = 0#8) }) (.mem mode) s :=
  rmw_congr (fun _ _ => rfl) testFlags_eq (.mem mode) s

theorem testAndReset_eq (mode : MemMode) (s : State) : testAndReset mode s =
    rmw (fun m t => m &&& ~~~t.A) (fun m t => { t with Z := decide (t.A &&& m = 0#8) }) (.mem mode) s :=
  rmw_congr (fun _ _ => rfl) testFlags_eq (.mem mode) s

/-- Settles O44: TSB and TRB are their operation in that form's mode, RMB and SMB the `rmw` of `withBit` in the zero
page. -/
theorem bitsOfMemoryAreSetAndReset : Obligations.BitsOfMemoryAreSetAndReset := by
  intro s z w
  refine ⟨rmwForms_of_rmw (fun m => testAndSet_eq m s) (fun _ => rfl) rfl,
    rmwForms_of_rmw (fun m => testAndReset_eq m s) (fun _ => rfl) rfl, fun p hp a ha => ?_⟩
  have runs : exec p.1 s = answer (rmw (fun m _ => withBit p.2.1 p.2.2 m) (fun _ t => t) (.mem (.zeroPage z)) s) := by
    fin_cases hp <;> rfl
  obtain rfl : a = zext16 z := eq_zext16 ha
  have address := ea_zeroPage z s
  rw [runs]
  refine ⟨fun m hm => ⟨withBit p.2.1 p.2.2 m, getLsbD_withBit _ _ _, fun b hb => ?_, fun q hq => ?_⟩, fun q hq => ?_⟩
  · rw [rmw_mem_ok rfl address hm hb, answer_ok]
  · rw [rmw_mem_error_write rfl address hm hq, answer_error]
  · rw [rmw_mem_error_read address hq, answer_error]

/-! ### What a store or read-modify-write leaves alone -/

/-- Whenever the outcome is a next state, it comes of one accepted write, at the mode's effective address, and of flags
and registers other than SP and PC. -/
def WritesOnceAt (m : MemMode) (s : State) (o : StepOutcome) : Prop :=
  ∀ (t : State) (a : Word), ea m s = .ok a → o = .next t →
    Written [a] s.bus t.bus ∧ t.SP = s.SP ∧ t.PC = s.PC ∧ t.inService = s.inService ∧ t.mode = s.mode ∧
      t.pendingNmi = s.pendingNmi ∧ t.pendingIrq = s.pendingIrq ∧ t.params = s.params

theorem writesOnceAt_store (m : MemMode) (v : Byte) (s : State) : WritesOnceAt m s (answer (writeMem m v s)) := by
  intro t a ha h
  obtain ⟨b, n, hb, hw, rfl⟩ := writeMem_eq_ok.1 (answer_eq_next.1 h)
  obtain rfl : b = a := Except.ok.inj (hb.symm.trans ha)
  exact ⟨.one hw, rfl, rfl, rfl, rfl, rfl, rfl, rfl⟩

theorem writesOnceAt_rmw {r : Byte → State → Byte} {g : Byte → State → State} {m : MemMode} {s : State}
    (kept : ∀ b, (g b s).bus = s.bus ∧ (g b s).SP = s.SP ∧ (g b s).PC = s.PC ∧ (g b s).inService = s.inService ∧
      (g b s).mode = s.mode ∧ (g b s).pendingNmi = s.pendingNmi ∧ (g b s).pendingIrq = s.pendingIrq ∧
      (g b s).params = s.params) :
    WritesOnceAt m s (answer (rmw r g (.mem m) s)) := by
  intro t a ha h
  obtain ⟨b, v, n, hb, -, hw, rfl⟩ := (rmw_mem_eq_ok fun b => (kept b).1).1 (answer_eq_next.1 h)
  obtain rfl : b = a := Except.ok.inj (hb.symm.trans ha)
  exact ⟨.one hw, (kept v).2⟩

theorem readByte_congr_read {a : Word} {s t : State} (h : t.bus.read a = s.bus.read a) :
    readByte a t = readByte a s := by
  simp only [readByte, h]

/-- Settles O27: the first eighteen forms are stores, all others read-modify-write. -/
theorem storesChangeOnlyTheByteAtTheirAddress : Obligations.StoresChangeOnlyTheByteAtTheirAddress := by
  intro s t z w p hp a ha h
  have once : WritesOnceAt p.2 s (exec p.1 s) := by
    fin_cases hp
    any_goals exact writesOnceAt_store _ _ s
    all_goals exact writesOnceAt_rmw fun _ => ⟨rfl, rfl, rfl, rfl, rfl, rfl, rfl, rfl⟩
  obtain ⟨written, rest⟩ := once t a ha h
  refine ⟨written, fun hx b hb => readByte_congr_read (written.read_other hx b ?_), rest⟩
  rwa [List.mem_singleton]

/-! ### What a push, JSR or BRK leaves alone -/

theorem callSubroutine_written {w : Word} {s t : State} (h : callSubroutine w s = .ok t) :
    Written [stackAddr s.SP, stackAddr (s.SP - 1#8)] s.bus t.bus := by
  obtain ⟨u, hu, e⟩ := bind_eq_ok.1 h
  have written := pushWord_written hu
  cases e
  exact written

/-- Settles O28: each pushes through `push`, so it writes the slots at SP downwards and no other address. -/
theorem stackWritersChangeOnlyTheirSlots : Obligations.StackWritersChangeOnlyTheirSlots := by
  intro s t w v p hp h
  have written : Written (p.2.map fun k => stackAddr (s.SP - k)) s.bus t.bus := by
    fin_cases hp
    all_goals simp only [List.map_cons, List.map_nil, BitVec.sub_zero]
    · exact push_written (answer_eq_next.1 h)
    · exact push_written (answer_eq_next.1 h)
    · exact push_written (answer_eq_next.1 h)
    · exact push_written (answer_eq_next.1 h)
    · exact callSubroutine_written (answer_eq_next.1 h)
    · exact enterVector_written (answer_eq_next.1 h)
  refine ⟨written, fun hx a ha => readByte_congr_read (written.read_other hx a fun mem => ?_)⟩
  obtain ⟨k, hk, e⟩ := List.mem_map.1 mem
  exact ha k hk e.symm

/-! ### Storing on the Handheld -/

/-- Settles O58: an instruction whose entry names memory makes a write before it answers (`Action.run_within`), and the
Handheld accepts none; the core's read is the router's at the mapped address. -/
theorem storingOnTheHandheldFaults : Obligations.StoringOnTheHandheldFaults := by
  intro s h hs
  refine ⟨fun i hi => ?_, fun a b => ?_, fun a r => ?_⟩
  · obtain ⟨shape, within, run⟩ := exec_keeping i
    cases he : exec i s with
    | next t =>
      obtain ⟨first, rest, v, k, hw, -⟩ := (Action.run_within within ((run s).symm.trans he)).2 hi
      rw [hs, AddressSpace.write_handheld] at hw
      cases hw
    | fault f => exact ⟨f, rfl⟩
    | refused r => exact absurd he (exec_ne_refused i s r)
  · rw [hs, Handheld.read_eq, AddressSpace.read]
    cases h.read a <;> simp
  · rw [hs, Handheld.read_eq, AddressSpace.read]
    cases h.read a <;> simp

end Sys2Proof.Machine
end

section
/-! Register transfers, flag instructions, no-operations, pushes and pulls (41_load_store.md, 44_stack_flags.md,
46_system.md). -/

namespace Sys2Proof.Machine

variable {s : State}

/-- Settles O33: a transfer is the copied register and `setNZ_eq`; TXS and the flag instructions are stated as they are
defined. -/
theorem transfersAndFlagInstructionsWriteTheirOneItem :
    Obligations.TransfersAndFlagInstructionsWriteTheirOneItem := by
  intro s
  refine ⟨?_, ?_, ?_, ?_, ?_, rfl, rfl, rfl, rfl, rfl, rfl, rfl, rfl⟩
  all_goals exact congrArg Host.Outcome.next (setNZ_eq _ _)

/-- Settles O55: each of these is one record, the state itself or its mode. -/
theorem noOperationsChangeNothingAndWaiStpSetTheMode : Obligations.NoOperationsChangeNothingAndWaiStpSetTheMode := by
  intro s v z w
  refine ⟨fun i hi => ?_, rfl, rfl⟩
  fin_cases hi <;> rfl

/-- Settles O45: each is `push` of its register's byte or of the P image. -/
theorem pushesStoreTheirRegister : Obligations.PushesStoreTheirRegister := by
  intro s a ha p hp
  obtain rfl : a = stackAddr s.SP := eq_stackAddr ha
  have runs : exec p.1 s = answer (push p.2 s) := by fin_cases hp <;> rfl
  rw [runs]
  refine ⟨fun b hb => ?_, fun r hr => ?_⟩
  · rw [push_ok hb, sub_one_eq_ofNat, answer_ok]
  · rw [push_error hr, answer_error]

theorem exec_pull_ok {i : Instr} {f : Byte → State → State} {c : Byte} (runs : exec i s = (Action.pull f).run s)
    (h : s.bus.read (stackAddr (s.SP + 1#8)) = .ok c) :
    exec i s = .next (f c { s with SP := BitVec.ofNat 8 (s.SP.toNat + 1) }) := by
  rw [runs, Action.run, pull_ok h, ok_bind, add_one_eq_ofNat]
  rfl

theorem exec_pull_error {i : Instr} {f : Byte → State → State} {r : Reason} (runs : exec i s = (Action.pull f).run s)
    (h : s.bus.read (stackAddr (s.SP + 1#8)) = .error r) :
    exec i s = .fault (.busFault r (stackAddr (s.SP + 1#8))) := by
  rw [runs, Action.run, pull_error h, error_bind, answer_error]

/-- The new state of a pull instruction, from the byte pulled and the state with SP one higher. -/
def loadPulled (i : Instr) (c : Byte) (t : State) : State :=
  match i with
  | .pla => setNZ c { t with A := c }
  | .plx => setNZ c { t with X := c }
  | .ply => setNZ c { t with Y := c }
  | _ => loadFlags c t

theorem exec_pulls {i : Instr} (hi : i ∈ ([.pla, .plx, .ply, .plp] : List Instr)) (s : State) :
    exec i s = (Action.pull (loadPulled i)).run s := by
  fin_cases hi <;> rfl

/-- Settles O47: each is one pull and `loadPulled`. -/
theorem pullsLoadTheirRegister : Obligations.PullsLoadTheirRegister := by
  intro s a ha
  obtain rfl : a = stackAddr (s.SP + 1#8) := eq_stackAddr_add_one ha
  refine ⟨fun c hc => ⟨?_, ?_, ?_, ?_⟩, fun r hr i hi => exec_pull_error (exec_pulls hi s) hr⟩
  · rw [exec_pull_ok (exec_pulls (by decide) s) hc, loadPulled, setNZ_eq]
  · rw [exec_pull_ok (exec_pulls (by decide) s) hc, loadPulled, setNZ_eq]
  · rw [exec_pull_ok (exec_pulls (by decide) s) hc, loadPulled, setNZ_eq]
  · exact exec_pull_ok (exec_pulls (by decide) s) hc

end Sys2Proof.Machine
end

section
/-! Control transfer (45_control.md R270 to R301). -/

namespace Sys2Proof.Machine

variable {s : State}

/-! ### Branches -/

theorem branchIf_eq (c : Bool) (r : Byte) (s : State) : branchIf c r s =
    if c = true then { s with PC := BitVec.ofInt 16 ((s.PC.toNat : Int) + r.toInt) } else s := by
  rw [branchIf, branchTarget, add_sext16]

/-- Settles O48: each is `branchIf` of its own flag. -/
theorem branchesAddTheSignedOffset : Obligations.BranchesAddTheSignedOffset := by
  intro s r p hp
  have runs : exec p.1 s = .next (branchIf p.2 r s) := by fin_cases hp <;> rfl
  rw [runs, branchIf_eq]

/-- Settles O49: each is `branchOnBit` of its own bit number and value. -/
theorem bitBranchesTestOneZeroPageBit : Obligations.BitBranchesTestOneZeroPageBit := by
  intro s z r p hp a ha
  obtain rfl : a = zext16 z := eq_zext16 ha
  have runs : exec p.1 s = answer (branchOnBit p.2.1 p.2.2 z r s) := by fin_cases hp <;> rfl
  rw [runs, branchOnBit]
  refine ⟨fun m hm => ?_, fun q hq => ?_⟩
  · rw [readSrc_mem_ok (ea_zeroPage z s) hm, ok_bind, branchIf_eq, pure_eq, answer_ok]
    simp only [beq_iff_eq]
  · rw [readSrc_mem_error (ea_zeroPage z s) hq, error_bind, answer_error]

/-! ### Jumps, calls and returns -/

theorem jumpTo_ok {m : MemMode} {target : Word} (h : ea m s = .ok target) :
    jumpTo m s = .ok { s with PC := target } := by
  rw [jumpTo, h, ok_bind, pure_eq]

theorem jumpTo_error {m : MemMode} {f : Fault} (h : ea m s = .error f) : jumpTo m s = .error f := by
  rw [jumpTo, h, error_bind]

/-- Settles O50: each is `jumpTo` in its mode. -/
theorem jumpsSetPcToTheirAddress : Obligations.JumpsSetPcToTheirAddress := by
  intro s w
  exact ⟨rfl, fun target h => congrArg answer (jumpTo_ok (m := .indirect w) h),
    fun target h => congrArg answer (jumpTo_ok (m := .absoluteIndexedIndirect w) h),
    fun f => ⟨fun h => congrArg answer (jumpTo_error (m := .indirect w) h),
      fun h => congrArg answer (jumpTo_error (m := .absoluteIndexedIndirect w) h)⟩⟩

theorem exec_jsr (w : Word) (s : State) : exec (.jsr w) s = answer (callSubroutine w s) := rfl

theorem callSubroutine_of_pushWord {w : Word} {t : State} (h : pushWord (s.PC - 1#16) s = .ok t) :
    callSubroutine w s = .ok { t with PC := w } := by
  rw [callSubroutine, h, ok_bind, pure_eq]

theorem callSubroutine_of_pushWord_error {w : Word} {f : Fault} (h : pushWord (s.PC - 1#16) s = .error f) :
    callSubroutine w s = .error f := by
  rw [callSubroutine, h, error_bind]

/-- Settles O51: the word pushed is PC - 1, and `pushWord` names the slot of the first refused write. -/
theorem jsrStacksNextMinusOne : Obligations.JsrStacksNextMinusOne := by
  intro s w ret hret
  obtain rfl : ret = s.PC - 1#16 := by
    apply BitVec.eq_of_toNat_eq
    rw [hret, BitVec.toNat_sub, BitVec.toNat_ofNat]
    omega
  rw [exec_jsr]
  refine ⟨fun b1 b2 h1 h2 => ?_, fun r h => ?_, fun b1 r h1 h2 => ?_⟩
  · rw [callSubroutine_of_pushWord (pushWord_ok h1 h2), answer_ok]
  · rw [callSubroutine_of_pushWord_error (pushWord_error_high h), answer_error]
  · rw [callSubroutine_of_pushWord_error (pushWord_error_low h1 h2), answer_error]

theorem exec_rts (s : State) : exec .rts s = answer (returnFromSubroutine s) := rfl

theorem returnFromSubroutine_ok {lo hi : Byte} (h1 : s.bus.read (stackAddr (s.SP + 1#8)) = .ok lo)
    (h2 : s.bus.read (stackAddr (s.SP + 2#8)) = .ok hi) :
    returnFromSubroutine s = .ok { s with SP := s.SP + 2#8, PC := concat16 hi lo + 1#16 } := by
  rw [returnFromSubroutine, pullWord_ok h1 h2, ok_bind]
  rfl

/-- Settles O52: the word pulled, plus 1, and `pullWord` names the first slot that cannot be read. -/
theorem rtsReturnsToThePulledAddressPlusOne : Obligations.RtsReturnsToThePulledAddressPlusOne := by
  intro s lo hi r
  rw [exec_rts]
  refine ⟨fun h1 h2 => ?_, fun h => ?_, fun h1 h2 => ?_⟩
  · rw [returnFromSubroutine_ok h1 h2, concat16_eq_ofNat, ← BitVec.ofNat_add, answer_ok]
  · rw [returnFromSubroutine, pullWord_error_low h, error_bind, answer_error]
  · rw [returnFromSubroutine, pullWord_error_high h1 h2, error_bind, answer_error]

/-! ### Interrupts' frames: RTI and BRK -/

theorem exec_rti_eq (s : State) : exec .rti s = answer (returnFromInterrupt s) := rfl

theorem returnFromInterrupt_error_flags {r : Reason} (h : s.bus.read (stackAddr (s.SP + 1#8)) = .error r) :
    returnFromInterrupt s = .error (.busFault r (stackAddr (s.SP + 1#8))) := by
  rw [returnFromInterrupt, pull_error h, error_bind]

theorem returnFromInterrupt_error_low {p : Byte} {r : Reason} (h1 : s.bus.read (stackAddr (s.SP + 1#8)) = .ok p)
    (h2 : s.bus.read (stackAddr (s.SP + 2#8)) = .error r) :
    returnFromInterrupt s = .error (.busFault r (stackAddr (s.SP + 2#8))) := by
  rw [← sp_add_add] at h2 ⊢
  rw [returnFromInterrupt, pull_ok h1, ok_bind]
  simp only
  rw [pullWord_error_low (by exact h2), error_bind]
  rfl

theorem returnFromInterrupt_error_high {p lo : Byte} {r : Reason}
    (h1 : s.bus.read (stackAddr (s.SP + 1#8)) = .ok p) (h2 : s.bus.read (stackAddr (s.SP + 2#8)) = .ok lo)
    (h3 : s.bus.read (stackAddr (s.SP + 3#8)) = .error r) :
    returnFromInterrupt s = .error (.busFault r (stackAddr (s.SP + 3#8))) := by
  have third : s.SP + 3#8 = s.SP + 1#8 + 2#8 := by bv_omega
  rw [← sp_add_add] at h2
  rw [third] at h3 ⊢
  rw [returnFromInterrupt, pull_ok h1, ok_bind]
  simp only
  rw [pullWord_error_high (by exact h2) (by exact h3), error_bind]
  rfl

/-- Settles O53: a pull of the flags and then of a word, each of which names the slot it cannot read. -/
theorem rtiRestoresFlagsAndPcAndEndsService : Obligations.RtiRestoresFlagsAndPcAndEndsService := by
  intro s p lo hi r
  rw [exec_rti_eq]
  refine ⟨fun h1 h2 h3 => ?_, fun h => ?_, fun h1 h2 => ?_, fun h1 h2 h3 => ?_⟩
  · rw [returnFromInterrupt_ok h1 h2 h3, concat16_eq_ofNat, answer_ok]
    rfl
  · rw [returnFromInterrupt_error_flags h, answer_error]
  · rw [returnFromInterrupt_error_low h1 h2, answer_error]
  · rw [returnFromInterrupt_error_high h1 h2 h3, answer_error]

theorem exec_brk (signature : Byte) (s : State) :
    exec (.brk signature) s = answer (enterVector vecIrq true s) := rfl

section EnterVector

variable {vector : Word} {brk : Bool} {b1 b2 b3 : AddressSpace} {lo : Byte} {r : Reason}

theorem enterVector_error_first (h : s.bus.write (stackAddr s.SP) (highByte s.PC) = .error r) :
    enterVector vector brk s = .error (.busFault r (stackAddr s.SP)) := by
  rw [enterVector, pushWord_error_high h, error_bind]

theorem enterVector_error_second (h1 : s.bus.write (stackAddr s.SP) (highByte s.PC) = .ok b1)
    (h2 : b1.write (stackAddr (s.SP - 1#8)) (lowByte s.PC) = .error r) :
    enterVector vector brk s = .error (.busFault r (stackAddr (s.SP - 1#8))) := by
  rw [enterVector, pushWord_error_low h1 h2, error_bind]

theorem enterVector_error_third (h1 : s.bus.write (stackAddr s.SP) (highByte s.PC) = .ok b1)
    (h2 : b1.write (stackAddr (s.SP - 1#8)) (lowByte s.PC) = .ok b2)
    (h3 : b2.write (stackAddr (s.SP - 2#8)) (pImage brk s) = .error r) :
    enterVector vector brk s = .error (.busFault r (stackAddr (s.SP - 2#8))) := by
  rw [enterVector, pushWord_ok h1 h2, ok_bind, push_error (by exact h3), error_bind]

variable (h1 : s.bus.write (stackAddr s.SP) (highByte s.PC) = .ok b1)
  (h2 : b1.write (stackAddr (s.SP - 1#8)) (lowByte s.PC) = .ok b2)
  (h3 : b2.write (stackAddr (s.SP - 2#8)) (pImage brk s) = .ok b3)
include h1 h2 h3

theorem enterVector_error_vector_low (h4 : b3.read vector = .error r) :
    enterVector vector brk s = .error (.busFault r vector) := by
  rw [enterVector, pushWord_ok h1 h2, ok_bind, push_ok (by exact h3), ok_bind, read16_error_low h4, error_bind]

theorem enterVector_error_vector_high (h4 : b3.read vector = .ok lo) (h5 : b3.read (vector + 1#16) = .error r) :
    enterVector vector brk s = .error (.busFault r (vector + 1#16)) := by
  rw [enterVector, pushWord_ok h1 h2, ok_bind, push_ok (by exact h3), ok_bind, read16_error_high h4 h5, error_bind]

end EnterVector

/-- Settles O54: BRK is `enterVector` through VEC_IRQ with B = 1, which has a lemma for success and for each of its five
accesses that can fail. -/
theorem brkStacksItsFrameAndTakesTheIrqVector : Obligations.BrkStacksItsFrameAndTakesTheIrqVector := by
  intro s signature
  rw [exec_brk]
  refine ⟨fun b1 b2 b3 h1 h2 h3 => ⟨fun lo hi h4 h5 => ?_, fun r h4 => ?_, fun lo r h4 h5 => ?_⟩, fun r h => ?_,
    fun b1 r h1 h => ?_, fun b1 b2 r h1 h2 h => ?_⟩
  · exact congrArg answer (enterVector_ok h1 h2 h3 h4 h5)
  · exact congrArg answer (enterVector_error_vector_low h1 h2 h3 h4)
  · exact congrArg answer (enterVector_error_vector_high h1 h2 h3 h4 h5)
  · exact congrArg answer (enterVector_error_first h)
  · exact congrArg answer (enterVector_error_second h1 h)
  · exact congrArg answer (enterVector_error_third h1 h2 h)

end Sys2Proof.Machine
end

section
/-! Reading back what was written (20_memory.md section 1.5), and the returns that read back what a call or an entry
pushed (45_control.md section 3, 60_exceptions.md sections 5 and 7). -/

namespace Sys2Proof.Machine

/-- Settles O25: the laws of one accepted write; that the written address gives its byte uses that a write never makes
an address unreadable. -/
theorem readAfterWriteGivesTheByteWritten : Obligations.ReadAfterWriteGivesTheByteWritten := by
  intro m m' a v hx hm hw
  refine ⟨AddressSpace.read_write_other hx hw, fun c hc => ?_, fun r => (AddressSpace.read_error_write hx hw a r).2,
    AddressSpace.write_error_write hx hw⟩
  cases hr : m'.read a with
  | ok d => rw [AddressSpace.read_write_self hx hm hw hr]
  | error r =>
    rw [AddressSpace.read_error_write hx hw, hc] at hr
    cases hr

/-- A byte that later writes do not touch is read back. -/
theorem read_back {m m' n : AddressSpace} {a : Word} {v c : Byte} {l : List Word} (hx : m.isExternal = false)
    (hm : m.wf = true) (hw : m.write a v = .ok m') (later : Written l m' n) (ha : a ∉ l) (hc : n.read a = .ok c) :
    c = v := by
  rw [later.read_other ((AddressSpace.isExternal_write hw).trans hx) a ha] at hc
  exact AddressSpace.read_write_self hx hm hw hc

theorem stackAddr_ne {a b : Byte} (h : a ≠ b) : stackAddr a ≠ stackAddr b := fun e => h (stackAddr_inj e)

/-- The slots of a pushed word read back as its bytes, where the address space keeps what is written or is said to. -/
theorem pushWord_read_back {w : Word} {s t : State} {hi lo : Byte} (hs : s.Inv) (h : pushWord w s = .ok t)
    (hhi : t.bus.read (stackAddr s.SP) = .ok hi) (hlo : t.bus.read (stackAddr (s.SP - 1#8)) = .ok lo)
    (external : s.bus.isExternal = true → hi = highByte w ∧ lo = lowByte w) : concat16 hi lo = w := by
  obtain ⟨m, n, h1, h2, rfl⟩ := pushWord_eq_ok.1 h
  have bytes : hi = highByte w ∧ lo = lowByte w := by
    cases hx : s.bus.isExternal with
    | true => exact external hx
    | false =>
      have slots : stackAddr s.SP ∉ [stackAddr (s.SP - 1#8)] :=
        fun e => stackAddr_ne (by bv_omega) (List.mem_singleton.1 e)
      exact ⟨read_back hx hs h1 (.one h2) slots hhi,
        AddressSpace.read_write_self ((AddressSpace.isExternal_write h1).trans hx) (AddressSpace.wf_write hs h1) h2 hlo⟩
  rw [bytes.1, bytes.2, concat16_highByte_lowByte]

/-- Settles O59: RTS pulls the word JSR pushed, from the slots it pushed it to, and adds the 1 JSR took off. -/
theorem rtsUndoesJsr : Obligations.RtsUndoesJsr := by
  intro s t w lo hi hs h hhi hlo external
  obtain ⟨u, hu, e⟩ := bind_eq_ok.1 (answer_eq_next.1 h)
  obtain rfl : { u with PC := w } = t := Except.ok.inj e
  have word := pushWord_read_back hs hu hhi hlo external
  obtain ⟨m, n, -, -, rfl⟩ := pushWord_eq_ok.1 hu
  have low : s.SP - 2#8 + 1#8 = s.SP - 1#8 := by bv_omega
  have high : s.SP - 2#8 + 2#8 = s.SP := BitVec.sub_add_cancel _ _
  rw [exec_rts, returnFromSubroutine_ok (by rw [low]; exact hlo) (by rw [high]; exact hhi), word, high,
    BitVec.sub_add_cancel, answer_ok]

/-- The flags of the P image are those it was made of, whatever B is (R37 to R39). -/
theorem loadFlags_pImage (b : Bool) (s t : State) : loadFlags (pImage b s) t =
    { t with N := s.N, V := s.V, D := s.D, I := s.I, Z := s.Z, C := s.C } := by
  obtain ⟨n, v, -, -, d, i, z, c⟩ := pImageBitsAreTheFlags.1 s b
  rw [loadFlags, n, v, d, i, z, c]

/-- The three slots of a vectored entry read back as the bytes it pushed. -/
theorem frame_read_back {m m1 m2 m3 : AddressSpace} {sp hi lo p vhi vlo vp : Byte} (hx : m.isExternal = false)
    (hm : m.wf = true) (h1 : m.write (stackAddr sp) vhi = .ok m1) (h2 : m1.write (stackAddr (sp - 1#8)) vlo = .ok m2)
    (h3 : m2.write (stackAddr (sp - 2#8)) vp = .ok m3) (hhi : m3.read (stackAddr sp) = .ok hi)
    (hlo : m3.read (stackAddr (sp - 1#8)) = .ok lo) (hp : m3.read (stackAddr (sp - 2#8)) = .ok p) :
    hi = vhi ∧ lo = vlo ∧ p = vp := by
  have hx1 := (AddressSpace.isExternal_write h1).trans hx
  have hm1 := AddressSpace.wf_write hm h1
  have high : stackAddr sp ∉ [stackAddr (sp - 1#8), stackAddr (sp - 2#8)] := fun e =>
    (List.mem_pair.1 e).elim (stackAddr_ne (by bv_omega)) (stackAddr_ne (by bv_omega))
  have low : stackAddr (sp - 1#8) ∉ [stackAddr (sp - 2#8)] := fun e =>
    stackAddr_ne (by bv_omega) (List.mem_singleton.1 e)
  exact ⟨read_back hx hm h1 (.append (.one h2) (.one h3)) high hhi, read_back hx1 hm1 h2 (.one h3) low hlo,
    AddressSpace.read_write_self ((AddressSpace.isExternal_write h2).trans hx1) (AddressSpace.wf_write hm1 h2) h3 hp⟩

/-- RTI after a vectored entry, from any state `t` that has the entry's address space and SP, restores what the entry
stacked. -/
theorem returnFromInterrupt_enterVector {vector : Word} {brk : Bool} {s u t : State} {p hi lo : Byte} (hs : s.Inv)
    (h : enterVector vector brk s = .ok u) (bus : t.bus = u.bus) (sp : t.SP = u.SP)
    (hhi : t.bus.read (stackAddr s.SP) = .ok hi) (hlo : t.bus.read (stackAddr (s.SP - 1#8)) = .ok lo)
    (hp : t.bus.read (stackAddr (s.SP - 2#8)) = .ok p)
    (word : s.bus.isExternal = true → hi = highByte s.PC ∧ lo = lowByte s.PC)
    (image : s.bus.isExternal = true → p = pImage brk s) :
    returnFromInterrupt t = .ok { t with
      N := s.N, V := s.V, D := s.D, I := s.I, Z := s.Z, C := s.C, SP := s.SP, PC := s.PC, inService := false } := by
  obtain ⟨b1, b2, b3, _, _, h1, h2, h3, -, -, rfl⟩ := enterVector_eq_ok.1 h
  have frame : hi = highByte s.PC ∧ lo = lowByte s.PC ∧ p = pImage brk s := by
    cases hx : s.bus.isExternal with
    | true => exact ⟨(word hx).1, (word hx).2, image hx⟩
    | false =>
      rw [bus] at hhi hlo hp
      exact frame_read_back hx hs h1 h2 h3 hhi hlo hp
  obtain ⟨rfl, rfl, rfl⟩ := frame
  have sp1 : t.SP + 1#8 = s.SP - 2#8 := by rw [sp]; bv_omega
  have sp2 : t.SP + 2#8 = s.SP - 1#8 := by rw [sp]; bv_omega
  have sp3 : t.SP + 3#8 = s.SP := by rw [sp]; exact BitVec.sub_add_cancel _ _
  rw [returnFromInterrupt_ok (by rw [sp1]; exact hp) (by rw [sp2]; exact hlo) (by rw [sp3]; exact hhi), sp3,
    concat16_highByte_lowByte, loadFlags_pImage]

/-- Settles O60: `returnFromInterrupt_enterVector` from the state BRK or the entry leaves. -/
theorem rtiUndoesBrkAndInterruptEntry : Obligations.RtiUndoesBrkAndInterruptEntry := by
  intro s t p lo hi hs hhi hlo hp word
  refine ⟨fun signature image h => ?_, fun image hm h => ?_, fun image hm h => ?_⟩
  · have entry := answer_eq_next.1 h
    rw [exec_rti_eq, returnFromInterrupt_enterVector hs entry rfl rfl hhi hlo hp word image]
    obtain ⟨b1, b2, b3, _, _, -, -, -, -, -, rfl⟩ := enterVector_eq_ok.1 entry
    rfl
  · obtain ⟨u, entry, rfl⟩ := enterInterrupt_eq_ok.1 h
    rw [exec_rti_eq, returnFromInterrupt_enterVector
      (t := clearPending .nmi { u with inService := true, mode := .running }) hs entry rfl rfl hhi hlo hp word image]
    obtain ⟨b1, b2, b3, _, _, -, -, -, -, -, rfl⟩ := enterVector_eq_ok.1 entry
    simp only [clearPending, hm, answer_ok]
  · obtain ⟨u, entry, rfl⟩ := enterInterrupt_eq_ok.1 h
    rw [exec_rti_eq, returnFromInterrupt_enterVector
      (t := clearPending .irq { u with inService := true, mode := .running }) hs entry rfl rfl hhi hlo hp word image]
    obtain ⟨b1, b2, b3, _, _, -, -, -, -, -, rfl⟩ := enterVector_eq_ok.1 entry
    simp only [clearPending, hm, answer_ok]

end Sys2Proof.Machine
end

section
/-! The Handheld router and its construction (20_memory.md part 2), and words of every family
(30_encoding.md section 3). -/

namespace Sys2Proof.Machine

theorem Handheld.readU8_byte {h : Handheld} {sel off : Nat} {b : Byte} (hs : sel < 32) (ho : off < 2 ^ 21)
    (hr : h.readRegion (selectRegion sel) off = .ok b) : h.readU8 (sel * 2 ^ 21 + off) = .byte b := by
  obtain ⟨selector, offset⟩ := mcu_split sel off ho
  rw [Handheld.readU8, if_neg (by unfold mcuSize; omega), selector, offset, hr]

theorem Handheld.readU8_unimplemented {h : Handheld} {sel off : Nat} {r : Reason} (hs : sel < 32) (ho : off < 2 ^ 21)
    (hr : h.readRegion (selectRegion sel) off = .error r) : h.readU8 (sel * 2 ^ 21 + off) = .unimplemented r := by
  obtain ⟨selector, offset⟩ := mcu_split sel off ho
  rw [Handheld.readU8, if_neg (by unfold mcuSize; omega), selector, offset, hr]

theorem Handheld.writeU8_of_lt {h : Handheld} {sel off : Nat} {v : Byte} (hs : sel < 32) (ho : off < 2 ^ 21) :
    h.writeU8 (sel * 2 ^ 21 + off) v = .unimplemented (regionWriteReason (selectRegion sel)) := by
  obtain ⟨selector, -⟩ := mcu_split sel off ho
  rw [Handheld.writeU8, if_neg (by unfold mcuSize; omega), selector]

theorem selectRegion_otp {sel : Nat} (h : sel = 0 ∨ sel = 31) : selectRegion sel = .otp := by
  obtain rfl | rfl := h <;> rfl

theorem selectRegion_flash {sel : Nat} (h3 : sel ≠ 3) (h0 : sel ≠ 0) (h31 : sel ≠ 31) :
    selectRegion sel = .flash := by
  rw [selectRegion, if_neg h3, if_neg (not_or.2 ⟨h0, h31⟩)]

/-- A flash offset below FLASH_LEN is its own remainder (R81). -/
theorem Handheld.readRegion_flash (h : Handheld) {off : Nat} (ho : off < 2 ^ 21) :
    h.readRegion .flash off = .ok (h.flash.read off) :=
  congrArg (fun k => Except.ok (h.flash.read k)) (Nat.mod_eq_of_lt ho)

/-- Settles O56: the selector of an address below 2^26 chooses the region (R79 to R81), and the address is refused from
2^26 on (R87). -/
theorem routerDecodesTheSelector : Obligations.RouterDecodesTheSelector := by
  intro h sel off v hs ho
  rw [Handheld.writeU8_of_lt hs ho]
  refine ⟨fun h3 => ?_, fun hotp => ?_, fun h3 h0 h31 => ?_, fun addr ha => ⟨if_pos ha, if_pos ha⟩⟩
  · subst h3
    exact ⟨Handheld.readU8_unimplemented hs ho rfl, rfl⟩
  · have otp := selectRegion_otp hotp
    exact ⟨Handheld.readU8_byte hs ho (by rw [otp]; rfl), by rw [otp]; rfl⟩
  · have flash := selectRegion_flash h3 h0 h31
    exact ⟨Handheld.readU8_byte hs ho (by rw [flash, Handheld.readRegion_flash h ho]), by rw [flash]; rfl⟩

theorem Handheld.new_ok {otpLen : Nat} {map : List (Nat × McuAddr)} {otp flash : List Byte}
    (ho : otp.length = otpLen) (hf : flash.length = flashLen) : Handheld.new otpLen map otp flash =
      .ok { otpLen := otpLen, otp := Memory.ofBytes 0 otp, flash := Memory.ofBytes 0 flash, cpuToMcu := map } := by
  simp only [Handheld.new, ho, hf, if_true]

/-- An image byte reads back at its offset. -/
theorem Memory.read_image (bytes : List Byte) (k : Nat) : (Memory.ofBytes 0 bytes).read k = bytes.getD k 0#8 := by
  simpa only [Nat.zero_add, unlistedByte] using Memory.read_ofBytes bytes 0 k

/-- Settles O57: the two length checks decide construction (R84), and an image reads back through the router. -/
theorem constructionChecksLengthsAndImagesReadBack : Obligations.ConstructionChecksLengthsAndImagesReadBack := by
  intro otpLen map otp flash
  refine ⟨fun ho hf => ⟨_, Handheld.new_ok ho hf, fun k hk hk2 => ?_, fun k hk => ?_⟩, fun ho hf => ?_,
    fun ho hf => ?_, fun ho hf => ?_⟩
  · have read := Handheld.readU8_byte (h := ⟨otpLen, Memory.ofBytes 0 otp, Memory.ofBytes 0 flash, map⟩) (sel := 0)
      (by decide) hk2 rfl
    rwa [Nat.zero_mul, Nat.zero_add, Nat.mod_eq_of_lt hk, Memory.read_image] at read
  · have read := Handheld.readU8_byte (h := ⟨otpLen, Memory.ofBytes 0 otp, Memory.ofBytes 0 flash, map⟩) (sel := 1)
      (by decide) hk (Handheld.readRegion_flash _ hk)
    rwa [Nat.one_mul, Memory.read_image] at read
  · rw [Handheld.new, if_neg ho, if_pos (show flash.length = flashLen from hf)]
  · rw [Handheld.new, if_pos ho, if_neg (show ¬ flash.length = flashLen from hf)]
    rfl
  · rw [Handheld.new, if_neg ho, if_neg (show ¬ flash.length = flashLen from hf)]
    cases Config.bothLengthsWrongReportsOtp with
    | true => exact .inl rfl
    | false => exact .inr rfl

end Sys2Proof.Machine

namespace Sys2Proof

/-- Settles O1: each listed word is decoded as written. -/
theorem opcodeBytesDecodeAsTheMapSays : Obligations.OpcodeBytesDecodeAsTheMapSays := by
  intro p hp
  fin_cases hp <;> rfl

end Sys2Proof
end
